-- ==== Sys2Proof/Word.lean ====
section
/-! DEFINITION. The word types of the two wires of the part (R202, R204), the type of its millisecond count (R196),
and the fixed tables in which it holds its numbered records. -/

namespace Sys2Proof

/-- A cell link word: 16 bits (R202). -/
abbrev Word := BitVec 16

/-- An arm link or sensor bus byte (R204, R205). -/
abbrev Byte := BitVec 8

/-- The millisecond count of R196: it wraps from 4,294,967,295 to 0. -/
abbrev Count := BitVec 32

/-- A table of `n` numbered records, held as a list of that length. Record numbers count from 1, as in every chapter. -/
abbrev Table (α : Type) (n : Nat) := { l : List α // l.length = n }

namespace Table

/-- A table whose every record is `x`. -/
def fill (α : Type) (n : Nat) (x : α) : Table α n := ⟨List.replicate n x, by simp⟩

/-- Record number `k`, counted from 1; `d` where no such record exists. -/
def get {α : Type} {n : Nat} (t : Table α n) (k : Nat) (d : α) : α :=
  match k with
  | 0 => d
  | i + 1 => (t.val[i]?).getD d

/-- The table with record number `k` (counted from 1) replaced; unchanged where no such record exists. -/
def set {α : Type} {n : Nat} (t : Table α n) (k : Nat) (x : α) : Table α n :=
  match k with
  | 0 => t
  | i + 1 => ⟨t.val.set i x, by simp [t.property]⟩

/-- Every record replaced by its image. -/
def map {α β : Type} {n : Nat} (f : α → β) (t : Table α n) : Table β n := ⟨t.val.map f, by simp [t.property]⟩

/-- Every record replaced by its image, the function seeing the record's number (from 1). -/
def mapNumbered {α β : Type} {n : Nat} (f : Nat → α → β) (t : Table α n) : Table β n :=
  ⟨t.val.zipIdx.map (fun x => f (x.2 + 1) x.1), by simp [t.property]⟩

/-- The records with their numbers, in ascending number. -/
def numbered {α : Type} {n : Nat} (t : Table α n) : List (Nat × α) := t.val.zipIdx.map (fun x => (x.2 + 1, x.1))

end Table

end Sys2Proof
end

