-- ==== Sys2Proof/Syntax.lean ====
section
/-! DEFINITION. The commands of the part: one constructor of Instr for each row of spec/opcode_table.json, with the fields
that the row's frame, event or expiry carries. Fields of a cell command are the values its frame carries, in the order of its
rule; an arm, an axis or an on-off field of a cell command is its code (R202), so that a code outside its range can be sent
and is refused by the meaning. An event of an arm link names the link it happens on. -/

namespace Sys2Proof

/-- The two arms (R2), and so the two arm links. -/
inductive ArmId | armA | armB
deriving DecidableEq, Repr

/-- The other arm. -/
def ArmId.other : ArmId → ArmId
  | .armA => .armB
  | .armB => .armA

/-- The three axes of an arm (R2). -/
inductive Axis | x | y | z
deriving DecidableEq, Repr

/-- The two lines of a rack port (R111). -/
inductive PortLine | occupied | head
deriving DecidableEq, Repr

/-- A position, an offset or a datum, one number for each axis. -/
structure Point where
  x : Int
  y : Int
  z : Int
deriving DecidableEq, Repr

/-- A box: a lower and an upper bound on each axis, both included (R2). -/
structure Box where
  lo : Point
  hi : Point
deriving DecidableEq, Repr

/-- The reference position and expansion rate of one scale, as ARM_CONFIG sets them (R10). -/
structure Scale where
  r : Int
  alpha : Nat
deriving DecidableEq, Repr

/-- Every field of R139 but the configured mark. -/
structure ArmSettings where
  carriage : Box
  volume : Box
  unknownBox : Box
  staging : Box
  scaleX : Scale
  scaleY : Scale
  scaleZ : Scale
  bayOffset : Int
  safeDepth : Int
  margin : Int
  silence : Nat
deriving DecidableEq, Repr

/-- The rack and change parameters of R112. -/
structure PortParams where
  filterTime : Nat
  maskTime : Nat
  stepLimits : Table Nat 8
  engageTime : Nat
  learning : Nat
  slowFactor : Nat
deriving DecidableEq, Repr

/-- The scale groups and the probe-environment group of one arm (R87). -/
structure ArmGroups where
  x : Nat
  y : Nat
  z : Nat
  env : Nat
deriving DecidableEq, Repr

/-- The four error components of a map node (R31). -/
structure MapNode where
  ep : Int
  es1 : Int
  es2 : Int
  ang : Int
deriving DecidableEq, Repr

/-- A tip's offset and radius as PROBE_DEFINE and TIP_QUALIFY carry them (R90). -/
structure TipGeometry where
  offset : Point
  radius : Int
deriving DecidableEq, Repr

/-- Three map tags, for X, Y and Z (R44, R177). -/
structure Tags where
  x : Nat
  y : Nat
  z : Nat
deriving DecidableEq, Repr

/-- The reasons of a cell link frame error (R192). -/
inductive FrameReason | bits | length | check
deriving DecidableEq, Repr

/-- The requests of an arm link (R189), each with the tag it carries. The kind of a CORRECT is its byte: 1 MOVE, 2 TOUCH (R204). -/
inductive Request
  | correct (tag kind tip : Nat) (u : Point)
  | check (tag : Nat) (target : Point)
  | reserve (tag first last wait : Nat)
  | release (tag first last : Nat)
  | changeBegin (tag target : Nat)
  | changeAbort (tag : Nat)
  | reportStaged (tag : Nat)
  | reportId (tag code : Nat)
  | reportHit (tag : Nat)
  | heartbeat (tag : Nat)
deriving DecidableEq, Repr

/-- A frame the sensor bus controller receives (R57, R205): whether its check value is right (R205 counts a wrong entry count
and a gap as a wrong check value), its type, and what a reply carries. -/
structure BusFrame where
  checkOk : Bool
  type : Nat
  address : Nat
  attempt : Nat
  entries : List Int
deriving DecidableEq, Repr

/-- The commands, events and expiries of spec/opcode_table.json, in the table's order. -/
inductive Instr
  -- configuration commands of the cell link
  | armConfig (arm : Nat) (settings : ArmSettings)
  | portConfig (arm count : Nat) (boxes : List Box) (params : PortParams)
  | bayConfig (count : Nat) (origin width : Int)
  | workpieceSet (group alpha : Nat) (datumA datumB : Point)
  | busSet (period timeout shortRetries longRetry rejoin : Nat)
  | nodeAdd (node address channels : Nat)
  | nodeRemove (node : Nat)
  | channelSet (channel node index group window : Nat) (stepLimit : Int) (fine longStale rejectLimit staleTime : Nat)
  | channelRemove (channel : Nat)
  | groupSet (group hold : Nat) (spread : Int)
  | tempSet (drift : Int) (groupsA groupsB : ArmGroups)
  -- map commands
  | mapOpen (arm axis tag : Nat) (origin spacing : Int) (count : Nat)
  | mapNodes (arm axis first : Nat) (entries : List MapNode)
  | mapClose (arm axis : Nat)
  | mapClear (arm axis : Nat)
  -- probe and port commands
  | probeDefine (probe code home count touchLimit : Nat) (tips : List TipGeometry)
  | tipQualify (probe tip : Nat) (offset : Point) (radius : Int)
  | probeRetire (probe : Nat)
  | expect (arm port probe : Nat)
  | portDisable (arm port : Nat)
  | portEnable (arm port : Nat)
  -- control commands
  | armEnable (arm : Nat)
  | armDisable (arm : Nat)
  | busEnable
  | busDisable
  | busRecover
  | channelClear (channel : Nat)
  | stopRelease (arm : Nat)
  | changeAbortCell (arm : Nat)
  | changeResolve (arm seated drop pick : Nat)
  | bayClear (arm : Nat)
  | announceClear
  | reset
  -- reads
  | readProbe (probe : Nat)
  | readPort (arm port : Nat)
  | readNode (node : Nat)
  | readAnnounce
  | readChannel (channel : Nat)
  | readGroup (group : Nat)
  | readBays
  | readArm (arm : Nat)
  | readMap (arm axis first count : Nat)
  | readNotices (clear : Nat)
  | readId
  -- frames of the cell link that are no command, resets and the attention hold
  | readFrame (words : Nat)
  | cellFrameError (reason : FrameReason) (code words : Nat)
  | powerOn
  | resetInputAssert
  | resetInputRelease
  | attentionHoldExpiry
  -- arm ports
  | hello (link : ArmId) (letter : Nat) (tags : Tags) (code : Nat)
  | ready (link : ArmId)
  | armFrameDiscarded (link : ArmId)
  | listenTimerExpiry (link : ArmId)
  | agreeTimerExpiry (link : ArmId)
  | silenceTimerExpiry (link : ArmId)
  | requestArrival (link : ArmId) (request : Request)
  | frameSent (link : ArmId)
  -- services of requests
  | correct (link : ArmId) (tag kind tip : Nat) (u : Point)
  | check (link : ArmId) (tag : Nat) (target : Point)
  | reserve (link : ArmId) (tag first last wait : Nat)
  | release (link : ArmId) (tag first last : Nat)
  | changeBegin (link : ArmId) (tag target : Nat)
  | changeAbortArm (link : ArmId) (tag : Nat)
  | reportStaged (link : ArmId) (tag : Nat)
  | reportId (link : ArmId) (tag code : Nat)
  | reportHit (link : ArmId) (tag : Nat)
  | heartbeat (link : ArmId) (tag : Nat)
  -- timers and lines of the bays, racks and change sequencers
  | waitTimerExpiry (link : ArmId)
  | stepTimerExpiry (link : ArmId)
  | engageTimerExpiry (link : ArmId)
  | portLineChange (link : ArmId) (port : Nat) (line : PortLine) (level : Bool)
  | filterExpiry (link : ArmId) (port : Nat) (line : PortLine)
  | maskEnd (link : ArmId)
  -- sensor bus and temperature unit
  | pollPeriodExpiry
  | pollSent
  | reply (frame : BusFrame)
  | replyTimeout
  | slotEnd
  | announce (checkOk : Bool) (address channels kind : Nat)
  | lineStuck
  | busLineLevelChange (driven : Bool)
  | releasedTimerExpiry
  | staleTimerExpiry (channel : Nat)
  | holdTimerExpiry (group : Nat)
deriving DecidableEq, Repr

end Sys2Proof
end

