-- ==== Sys2Proof/Decode.lean ====
section
/-! DEFINITION. The reading of a table word: the rows of spec/opcode_table.json give no bits, so no word spells a command here.
The frames of the three wires are read by Machine/Wire.lean. -/

namespace Sys2Proof

/-- The command that a word spells by the table's bits: none, since no row of the table gives any. -/
def decodeTableWord (_nbits _w : Nat) : Option Instr := none

end Sys2Proof
end

