-- ==== Sys2Proof/Config.lean ====
section
/-! DEFINITION. What the spec leaves open (one free value: the order of things that fall at one instant) and the fixed
numbers that the spec gives the part. -/

namespace Sys2Proof

/-- FREE VALUE, no body. Where several timers expire at one instant, and where several tips drift or several groups are lost at
one event, the spec gives no order among them (R5, R81, R104).
The order is the ascending order of these keys: the first argument counts the uses (`Device.freeCount`), the second is the
item's place in the list. Nothing can be proved about a key, so a claim holds for every order. Log entry 3. -/
opaque Config.freeKey : Nat → Nat → Nat

namespace Config

/-- Room of the cell link's output queue in words (R193). -/
abbrev outQueueRoom : Nat := 1024
/-- The idle word that the part clocks out on an empty output queue (R193, R202). -/
abbrev idleWord : Nat := 65535
/-- Free words without which a command is not handed on (R194). -/
abbrev serveRoom : Nat := 256
/-- Length of a BUSY or frame-error response (R194, R202). -/
abbrev shortResponse : Nat := 3
/-- Requests an arm's request queue holds (R177, R188). -/
abbrev requestRoom : Nat := 4
/-- Frames an arm's transmit list holds (R177, R190). -/
abbrev transmitRoom : Nat := 16
/-- The largest transmit list at which a request is taken into service (R188). -/
abbrev serviceLimit : Nat := 12
/-- Entries of the announce list (R63). -/
abbrev announceRoom : Nat := 4
/-- LISTEN timer, AGREE timer and attempts of a bring-up (R177, R181, R184). -/
abbrev listenTime : Nat := 1000
abbrev agreeTime : Nat := 200
abbrev attemptLimit : Nat := 3
/-- Open slot (R61), stuck watch (R65), released timer (R66), attention hold (R199), all in ms. -/
abbrev slotTime : Nat := 20
abbrev stuckTime : Nat := 5
abbrev releasedTime : Nat := 100
abbrev attentionHold : Nat := 1
/-- Vendor code, part code and revision of READ_ID (R196). -/
abbrev vendorCode : Nat := 731
abbrev partCode : Nat := 4620
abbrev revision : Nat := 1
/-- The reference temperature in m°C (conventions of 00_scope.md). -/
abbrev referenceTemperature : Int := 20000
/-- The range of accepted readings (R4, R73). -/
abbrev readingLow : Int := -40000
abbrev readingHigh : Int := 85000
/-- The fault marker of a channel entry (R205). -/
abbrev faultMarker : Int := -2147483648
/-- The ends of the 32-bit position range (R3). -/
abbrev positionLow : Int := -2147483648
abbrev positionHigh : Int := 2147483647

end Config

end Sys2Proof
end

