-- ==== Sys2Proof/Machine/State.lean ====
section
/-! DEFINITION. The state of the part: every record, timer, queue and line that the spec gives it, with its value after reset,
and the queue of commands that wait. Outputs that are a function of other state are computed (log entry 20):
the stop outputs of R170 and the attention output of R199 in Machine/Ops.lean, the bus driver of R65 in Machine/Bus.lean. -/

namespace Sys2Proof.Machine

/-- A timer of R1: stopped, or running with the whole milliseconds that remain. -/
abbrev Timer := Option Nat

/-! ### Maps and the workpiece record -/

/-- Map states in the order of R31. -/
inductive MapState | empty | loading | ready
deriving DecidableEq, Repr

/-- An entry of a node table with its written mark: the written set of R31 is the set of the marked indices. -/
structure MapEntry where
  node : MapNode
  written : Bool
deriving DecidableEq, Repr

/-- A map record (R31). The node count is the length of the node table. -/
structure MapRecord where
  state : MapState
  tag : Nat
  origin : Int
  spacing : Int
  nodes : List MapEntry
deriving DecidableEq, Repr

/-- The three maps of one arm (R31). -/
structure ArmMaps where
  x : MapRecord
  y : MapRecord
  z : MapRecord
deriving DecidableEq, Repr

/-- The workpiece record (R12). -/
structure Workpiece where
  group : Nat
  alpha : Nat
  datumA : Point
  datumB : Point
deriving DecidableEq, Repr

/-! ### Sensor bus -/

/-- Bus states in the order of R47. -/
inductive BusState | off | run | faulted
deriving DecidableEq, Repr

/-- The cycle phase of R47. -/
inductive CyclePhase
  | between
  | polling (address : Nat)
  | slot
deriving DecidableEq, Repr

/-- An announce, as the announce sets and the announce list hold it (R62, R63). -/
structure Announce where
  address : Nat
  channels : Nat
  kind : Nat
deriving DecidableEq, Repr

/-- Node states in the order of R51. -/
inductive NodeState | unused | rejoining | online | offline
deriving DecidableEq, Repr

/-- A node record (R51). -/
structure Node where
  address : Nat
  channels : Nat
  state : NodeState
  missed : Nat
  good : Nat
deriving DecidableEq, Repr

/-- The bus record (R47) with the state it implies (R56, R57, R61, R65), the node records (R51), the announce list (R63) and
the level of the bus line. -/
structure Bus where
  state : BusState
  pollPeriod : Nat
  replyTimeout : Nat
  shortRetries : Nat
  longRetry : Nat
  rejoin : Nat
  cycleNumber : BitVec 16
  phase : CyclePhase
  startPending : Bool
  previousSlot : List Announce
  presentSlot : List Announce
  periodTimer : Timer
  releasedTimer : Timer
  /-- the address last polled in this cycle, 0 at its start (R56) -/
  lastPolled : Nat
  /-- the attempt number of the poll in progress (R57) -/
  attempt : Nat
  /-- the poll frame of the present attempt is being sent (R57) -/
  sending : Bool
  replyTimer : Timer
  slotTimer : Timer
  stuckTimer : Timer
  /-- the line stands at the driven level (R65, R66): an input -/
  lineDriven : Bool
  nodes : Table Node 16
  announces : List Announce
  announceOverflow : Bool
deriving DecidableEq, Repr

/-! ### Temperature unit -/

/-- Channel states in the order of R68. -/
inductive ChannelState | unused | waiting | active | stale | faulted
deriving DecidableEq, Repr

/-- A channel record (R68). The window holds its readings newest first. -/
structure Channel where
  node : Nat
  index : Nat
  group : Nat
  windowSize : Nat
  stepLimit : Int
  fine : Bool
  longStale : Bool
  rejectLimit : Nat
  staleTime : Nat
  state : ChannelState
  window : List Int
  filtered : Option Int
  rejects : Nat
  lastAccepted : Option Int
  staleTimer : Timer
deriving DecidableEq, Repr

/-- Group states in the order of R79. -/
inductive GroupState | empty | valid | held | lost
deriving DecidableEq, Repr

/-- A group record (R79), with its member counts at its last evaluation (R86). -/
structure Group where
  state : GroupState
  value : Option Int
  holdTime : Nat
  spreadLimit : Int
  spread : Bool
  holdTimer : Timer
  members : Nat
  usable : Nat
deriving DecidableEq, Repr

/-- The temperature unit's records (R68, R79, R87). -/
structure Temperature where
  channels : Table Channel 32
  groups : Table Group 12
  driftWindow : Int
deriving DecidableEq, Repr

/-! ### Probe table -/

/-- Tip states in the order of R90. -/
inductive TipState | unqualified | qualified | drifted | due | suspect
deriving DecidableEq, Repr

/-- A tip record (R90). -/
structure Tip where
  offset : Point
  radius : Int
  state : TipState
  tq : Option Int
  touches : Nat
deriving DecidableEq, Repr

/-- Probe states in the order of R89. -/
inductive ProbeState | free | defined | inService | suspect | retiring
deriving DecidableEq, Repr

/-- A probe's location (R89, R96); `nowhere` is the location none of a FREE record. -/
inductive Location
  | nowhere
  | out
  | rack (port : Nat)
  | seated
  | unresolved
deriving DecidableEq, Repr

/-- A probe record (R89). The tip count is the length of the tip list. -/
structure Probe where
  state : ProbeState
  code : Nat
  home : ArmId
  location : Location
  touchLimit : Nat
  tips : List Tip
deriving DecidableEq, Repr

/-! ### Racks and change sequencers -/

/-- Port states in the order of R111. -/
inductive PortState
  | empty
  | expecting (probe : Nat)
  | holding (probe : Nat)
  | vacant (probe : Nat)
  | unknown
  | disabled
deriving DecidableEq, Repr

/-- A port record (R111), with the filter timers of its two lines (R113). -/
structure Port where
  state : PortState
  box : Box
  occupied : Bool
  head : Bool
  occupiedFilter : Timer
  headFilter : Timer
deriving DecidableEq, Repr

/-- The present levels of the two lines of one port: inputs (R113). -/
structure PortLevels where
  occupied : Bool
  head : Bool
deriving DecidableEq, Repr

/-- The rack of one arm: configured ports 1..count, line levels of all ten ports, parameters (R112), mask (R114). -/
structure Rack where
  ports : List Port
  lines : Table PortLevels 10
  params : PortParams
  maskTimer : Timer
deriving DecidableEq, Repr

/-- The eight steps of a change, in the order of R125. -/
inductive Step
  | stageIn | dropDock | dropRelease | dropDepart | pickDock | pickEngage | pickDepart | stageOut
deriving DecidableEq, Repr

/-- The abort causes, in the order of R133. -/
inductive AbortCause
  | stepTimeout | idMismatch | sensor | stop | link | cellAbort | armAbort
deriving DecidableEq, Repr

/-- A change plan (R122, R124). Its step is the step of the sequencer state that carries it. -/
structure Plan where
  old : Option Nat
  target : Option Nat
  drop : Option Nat
  pick : Option Nat
  entry : Count
deriving DecidableEq, Repr

/-- The sequencer state with the plan, which is present in CYCLE and CHANGE_FAULT (R122). -/
inductive SeqState
  | idle
  | cycle (step : Step) (plan : Plan)
  | changeFault (cause : AbortCause) (step : Step) (plan : Plan)
deriving DecidableEq, Repr

/-- The seated field (R122). -/
inductive Seated
  | noProbe
  | unknown
  | probe (number : Nat)
deriving DecidableEq, Repr

/-- A change sequencer (R122). -/
structure Sequencer where
  seated : Seated
  state : SeqState
  engage : Bool
  dropOccupied : Bool
  dropId : Bool
  pickOccupied : Bool
  pickHead : Bool
  stepTimer : Timer
  engageTimer : Timer
  /-- the latch-release output: asserted is true -/
  latch : Bool
  rings : Table (List Nat) 8
deriving DecidableEq, Repr

/-! ### Bays and stop latches -/

/-- The cause of a stop latch (R169). -/
inductive StopCause
  | rack (box : Nat)
  | bay (bay : Nat) (arm : ArmId)
deriving DecidableEq, Repr

/-- An occupied wait slot (R162). -/
structure WaitSlot where
  tag : Nat
  first : Nat
  last : Nat
  timer : Timer
deriving DecidableEq, Repr

/-- The bay configuration and table (R157). The bay count is the length of the table; a FREE bay has no holder. -/
structure Bays where
  origin : Int
  width : Int
  holders : List (Option ArmId)
deriving DecidableEq, Repr

/-! ### Arm ports -/

/-- Arm modes in the order of R177. -/
inductive Mode | off | starting | run
deriving DecidableEq, Repr

/-- The phases of a bring-up (R177). -/
inductive Phase | listen | agree
deriving DecidableEq, Repr

/-- The status codes of R202, in the order of their numbers. -/
inductive Status
  | ok | clamped | accepted | granted | busy | full | pending | badArg | badState
  | badTip | notFound | notConfigured | duplicate | tooLarge | noPort | notInRack | retiring | unknownProbe
  | alreadySeated | nothingToDo | changing | noProbe | noPosition | noTemperature | faulted | conflict | timeout
  | inUse | stopped | causePresent | disagrees | notFaulted | stillStuck | incomplete | ignored | frameError
deriving DecidableEq, Repr

/-- The eleven flags of a CORRECT response (1.6). -/
structure Flags where
  mapAbsent : Bool
  mapMismatch : Bool
  outsideX : Bool
  outsideY : Bool
  outsideZ : Bool
  thermalHeld : Bool
  thermalLost : Bool
  thermalAbsent : Bool
  spread : Bool
  tipNotQualified : Bool
  saturated : Bool
deriving DecidableEq, Repr

/-- The result of a CHECK, in the numbering of R204. -/
inductive CheckResult | clear | limited | blockedStopped | blockedRack | blockedBay
deriving DecidableEq, Repr

/-- What a CHECK answers (R153): result, returned target, clamped axes, and the cause, box or bay it names. -/
structure CheckAnswer where
  result : CheckResult
  target : Point
  clampX : Bool
  clampY : Bool
  clampZ : Bool
  causeKind : Nat
  number : Nat
  causeArm : Nat
deriving DecidableEq, Repr

/-- The request kinds whose response is a status and two values, in the order of R204's kinds 18..25. -/
inductive ShortKind
  | reserve | release | changeBegin | changeAbort | reportStaged | reportId | reportHit | heartbeat
deriving DecidableEq, Repr

/-- What a CHANGE_END reports (R126, R133). -/
inductive ChangeOutcome
  | completed (seated : Seated)
  | aborted (cause : AbortCause) (step : Step)
deriving DecidableEq, Repr

/-- The frames of a transmit list (R190, R204). -/
inductive TxFrame
  | agree (tags : Tags) (seated : Seated) (code : Nat)
  | refuse (code : Nat)
  | correctResponse (tag : Nat) (status : Status) (q : Point) (flags : Flags)
  | checkResponse (tag : Nat) (status : Status) (answer : CheckAnswer)
  | shortResponse (kind : ShortKind) (tag : Nat) (status : Status) (first second : Nat)
  | grant (tag : Nat) (status : Status) (first last : Nat)
  | changeStep (step : Step) (latch : Bool)
  | changeEnd (outcome : ChangeOutcome)
  | stop (cause : StopCause)
deriving DecidableEq, Repr

/-- An arm port (R177), with the tags sent in its latest AGREE (R45). -/
structure ArmPort where
  mode : Mode
  phase : Option Phase
  attempts : Nat
  expected : Tags
  heldCode : Nat
  agreeTags : Tags
  phaseTimer : Timer
  silenceTimer : Timer
  queue : List Request
  transmit : List TxFrame
  dropped : Nat
deriving DecidableEq, Repr

/-- Everything the part holds for one arm: the arm record (R10, R23, R87, R139), the envelope unit's last sample and exit set
(R144, R146), the maps (R31), the rack (R111), the sequencer (R122), the wait slot (R162), the stop latch (R169), the port (R177). -/
structure Arm where
  settings : ArmSettings
  configured : Bool
  groups : ArmGroups
  mismatch : Bool
  lastSample : Option Point
  exitSet : List Nat
  maps : ArmMaps
  rack : Rack
  seq : Sequencer
  wait : Option WaitSlot
  stop : Option StopCause
  port : ArmPort
deriving DecidableEq, Repr

/-! ### Notices and the cell link -/

/-- The reasons of ARM_LINK, in the order of R197. -/
inductive LinkReason | silence | restart | attempts
deriving DecidableEq, Repr

/-- A notice with its argument (R197). -/
inductive Notice
  | nodeAnnounced (address : Nat)
  | nodeOffline (node : Nat)
  | busFault (address : Nat)
  | channelFault (channel : Nat)
  | groupLost (group : Nat)
  | tipDrifted (probe tip : Nat)
  | tipDue (probe tip : Nat)
  | probeSuspect (probe : Nat)
  | portMismatch (arm : ArmId) (port : Nat)
  | probeRemoved (probe : Nat)
  | changeDone (arm : ArmId)
  | changeFault (arm : ArmId) (cause : AbortCause) (step : Step)
  | stepSlow (arm : ArmId) (step : Step)
  | intrusion (arm : ArmId) (cause : StopCause)
  | armLink (arm : ArmId) (reason : LinkReason)
  | frameError (reason : FrameReason) (code : Nat)
deriving DecidableEq, Repr

/-- An entry of the notice set: the first argument and the occurrence count (R197). -/
structure NoticeEntry where
  notice : Notice
  count : Nat
deriving DecidableEq, Repr

/-- The sources of a reset, in the order of R196. -/
inductive ResetSource | power | input | command
deriving DecidableEq, Repr

/-- The cell link's own state (R193, R194, R196, R199, R201); `held` is the level of the reset input. -/
structure CellLink where
  held : Bool
  source : ResetSource
  queue : List Word
  overflow : Bool
  hold : Timer
deriving DecidableEq, Repr

/-! ### The part -/

/-- The records that the arms, their changes, their bays and their probes share, with the notice set and the millisecond
count: what a request, a line event or a timer of an arm reads and writes. -/
structure Cell where
  ms : Count
  /-- the notice set: one place for each of the sixteen causes of R197, in the table's order -/
  notices : Table (Option NoticeEntry) 16
  armA : Arm
  armB : Arm
  probes : Table Probe 40
  bays : Bays
deriving DecidableEq, Repr

/-- The part without the queue of commands. -/
structure Device where
  link : CellLink
  bus : Bus
  temp : Temperature
  workpiece : Workpiece
  cell : Cell
  /-- the model's own: counts the uses of the free order (Config.freeKey, log entry 3) -/
  freeCount : Nat
deriving DecidableEq, Repr

/-- The machine: the commands that wait, first in, first out, and the part. -/
structure State where
  pending : List Instr
  dev : Device
deriving DecidableEq, Repr

/-- The reasons a step could fault. The spec gives the part no behaviour that stops it, so there is no constructor. -/
inductive Fault
deriving DecidableEq, Repr

/-- The reasons a step is refused. -/
inductive Refusal
  /-- raised by an arm of exec for a command that has no meaning yet; safe. No arm raises it now. -/
  | notModelled (mnemonic : String)
deriving DecidableEq, Repr

/-! ### Values after reset -/

/-- (0, 0, 0). -/
def Point.origin : Point := ⟨0, 0, 0⟩

/-- The box with every bound 0: the zero box of R143. -/
def Box.zero : Box := ⟨Point.origin, Point.origin⟩

/-- An EMPTY map (R31, R32). -/
def MapRecord.reset : MapRecord := ⟨.empty, 0, 0, 0, []⟩

/-- R12. -/
def Workpiece.reset : Workpiece := ⟨0, 0, Point.origin, Point.origin⟩

/-- R51. -/
def Node.reset : Node := ⟨0, 0, .unused, 0, 0⟩

/-- The bus record after reset (R47), its line at the level the pin has. -/
def Bus.reset (lineDriven : Bool) : Bus where
  state := .off
  pollPeriod := 500
  replyTimeout := 10
  shortRetries := 2
  longRetry := 7
  rejoin := 3
  cycleNumber := 0
  phase := .between
  startPending := false
  previousSlot := []
  presentSlot := []
  periodTimer := some 500
  releasedTimer := none
  lastPolled := 0
  attempt := 0
  sending := false
  replyTimer := none
  slotTimer := none
  stuckTimer := none
  lineDriven := lineDriven
  nodes := Table.fill Node 16 Node.reset
  announces := []
  announceOverflow := false

/-- R68. -/
def Channel.reset : Channel where
  node := 0
  index := 0
  group := 0
  windowSize := 1
  stepLimit := 500
  fine := false
  longStale := false
  rejectLimit := 3
  staleTime := 5000
  state := .unused
  window := []
  filtered := none
  rejects := 0
  lastAccepted := none
  staleTimer := none

/-- R79. -/
def Group.reset : Group := ⟨.empty, none, 120000, 0, false, none, 0, 0⟩

/-- R68, R79, R87. -/
def Temperature.reset : Temperature := ⟨Table.fill Channel 32 Channel.reset, Table.fill Group 12 Group.reset, 1000⟩

/-- A FREE record (R89). -/
def Probe.reset : Probe := ⟨.free, 0, .armA, .nowhere, 0, []⟩

/-- R112. -/
def PortParams.reset : PortParams := ⟨10, 80, Table.fill Nat 8 60000, 300, 2, 24⟩

/-- R111, R114, the lines at the levels the pins have. -/
def Rack.reset (lines : Table PortLevels 10) : Rack := ⟨[], lines, PortParams.reset, none⟩

/-- R122. -/
def Sequencer.reset : Sequencer where
  seated := .unknown
  state := .idle
  engage := false
  dropOccupied := false
  dropId := false
  pickOccupied := false
  pickHead := false
  stepTimer := none
  engageTimer := none
  latch := false
  rings := Table.fill (List Nat) 8 []

/-- R157. -/
def Bays.reset : Bays := ⟨0, 10000, []⟩

/-- R177. -/
def ArmPort.reset : ArmPort := ⟨.off, none, 0, ⟨0, 0, 0⟩, 0, ⟨0, 0, 0⟩, none, none, [], [], 0⟩

/-- R139. -/
def ArmSettings.reset : ArmSettings :=
  ⟨Box.zero, Box.zero, Box.zero, Box.zero, ⟨0, 0⟩, ⟨0, 0⟩, ⟨0, 0⟩, 0, 0, 0, 200⟩

/-- An arm after reset (R10, R23, R87, R139, R144, R146, R162, R169). -/
def Arm.reset (lines : Table PortLevels 10) : Arm where
  settings := ArmSettings.reset
  configured := false
  groups := ⟨0, 0, 0, 0⟩
  mismatch := false
  lastSample := none
  exitSet := []
  maps := ⟨MapRecord.reset, MapRecord.reset, MapRecord.reset⟩
  rack := Rack.reset lines
  seq := Sequencer.reset
  wait := none
  stop := none
  port := ArmPort.reset

/-- The number of a reset source (R202). -/
def ResetSource.number : ResetSource → Nat
  | .power => 0
  | .input => 1
  | .command => 2

/-- The reset response (R201, R202): the code of RESET, status OK with the overflow mark clear (R193), length 4, the source. -/
def resetResponse (source : ResetSource) : List Word :=
  [1036, 0, 4, BitVec.ofNat 16 source.number]

/-- The cell link after reset (R193, R196, R199, R201). -/
def CellLink.reset (source : ResetSource) : CellLink := ⟨false, source, resetResponse source, false, none⟩

/-- The present levels of all port lines and the bus line: the inputs that a reset does not change (log entry 7). -/
structure Pins where
  linesA : Table PortLevels 10
  linesB : Table PortLevels 10
  lineDriven : Bool
deriving DecidableEq, Repr

/-- The inputs at power-on: DESIGN CHOICE, every line clear and the bus line released (log entry 7). -/
def Pins.quiet : Pins := ⟨Table.fill PortLevels 10 ⟨false, false⟩, Table.fill PortLevels 10 ⟨false, false⟩, false⟩

/-- The part right after a reset: every record, timer and line at its value after reset (R200, R201). -/
def Device.reset (source : ResetSource) (pins : Pins) (freeCount : Nat) : Device where
  link := CellLink.reset source
  bus := Bus.reset pins.lineDriven
  temp := Temperature.reset
  workpiece := Workpiece.reset
  cell :=
    { ms := 0
      notices := Table.fill (Option NoticeEntry) 16 none
      armA := Arm.reset pins.linesA
      armB := Arm.reset pins.linesB
      probes := Table.fill Probe 40 Probe.reset
      bays := Bays.reset }
  freeCount := freeCount

/-- The machine right after power-on: no command waits. -/
def State.reset : State := ⟨[], Device.reset .power Pins.quiet 0⟩

end Sys2Proof.Machine
end

