-- ==== Sys2Proof/Machine/Operands.lean ====
section
/-! DEFINITION. The operand forms of commands and requests: the codes of R202, the clamping of R4 and R195, rounding and
saturation of R3, and the encoding of values in words and bytes (R202, R204). -/

namespace Sys2Proof.Machine

/-! ### Arithmetic conventions (R3) -/

/-- Division by a positive divisor, rounded to the nearest integer with halves away from zero (R3, R8). -/
def roundDiv (n : Int) (d : Int) : Int :=
  if 0 ≤ n then (2 * n + d) / (2 * d) else -((2 * (-n) + d) / (2 * d))

/-- The rounded mean of a list of integers (R3). -/
def roundedMean (l : List Int) : Int := roundDiv (l.foldl (· + ·) 0) l.length

/-- Saturation to the 32-bit range (R3). -/
def saturate (v : Int) : Int :=
  if v < Config.positionLow then Config.positionLow else if Config.positionHigh < v then Config.positionHigh else v

/-- Whether a value saturates (R3, R21). -/
def saturates (v : Int) : Bool := saturate v != v

/-- A numeric parameter clamped to the nearer end of its range (R4). -/
def clampNat (lo hi v : Nat) : Nat := if v < lo then lo else if hi < v then hi else v

/-- The same for a parameter that may be negative (R4). -/
def clampInt (lo hi v : Int) : Int := if v < lo then lo else if hi < v then hi else v

/-- The status of a command that takes effect: CLAMPED if a value was clamped, OK otherwise (R195). -/
def clampStatus (clamped : Bool) : Status := if clamped then .clamped else .ok

/-! ### Codes (R202) -/

/-- The arm that a code names: 1 is A, 2 is B. -/
def armOfCode : Nat → Option ArmId
  | 1 => some .armA
  | 2 => some .armB
  | _ => none

/-- The code of an arm (R202, R204). -/
def armCode : ArmId → Nat
  | .armA => 1
  | .armB => 2

/-- The axis that a code names: 1 X, 2 Y, 3 Z. -/
def axisOfCode : Nat → Option Axis
  | 1 => some .x
  | 2 => some .y
  | 3 => some .z
  | _ => none

/-- The level that an on-off or set-clear code gives: 1 is on, 0 is off. -/
def switchOfCode : Nat → Option Bool
  | 0 => some false
  | 1 => some true
  | _ => none

/-- The word of a flag: 1 when set. -/
def flagCode (b : Bool) : Nat := if b then 1 else 0

/-- The number of a status code (R202). -/
def Status.number : Status → Nat
  | .ok => 0 | .clamped => 1 | .accepted => 2 | .granted => 3 | .busy => 4 | .full => 5 | .pending => 6
  | .badArg => 7 | .badState => 8 | .badTip => 9 | .notFound => 10 | .notConfigured => 11 | .duplicate => 12
  | .tooLarge => 13 | .noPort => 14 | .notInRack => 15 | .retiring => 16 | .unknownProbe => 17
  | .alreadySeated => 18 | .nothingToDo => 19 | .changing => 20 | .noProbe => 21 | .noPosition => 22
  | .noTemperature => 23 | .faulted => 24 | .conflict => 25 | .timeout => 26 | .inUse => 27 | .stopped => 28
  | .causePresent => 29 | .disagrees => 30 | .notFaulted => 31 | .stillStuck => 32 | .incomplete => 33
  | .ignored => 34 | .frameError => 35

/-- The number of a frame-error reason in a response header and in a notice (R202). -/
def frameReasonCode : FrameReason → Nat
  | .bits => 1
  | .length => 2
  | .check => 3

/-- The number of a change step, 1..8 (R202, R204). -/
def Step.number : Step → Nat
  | .stageIn => 1 | .dropDock => 2 | .dropRelease => 3 | .dropDepart => 4
  | .pickDock => 5 | .pickEngage => 6 | .pickDepart => 7 | .stageOut => 8

/-- The number of an abort cause, 1..7 (R202, R204). -/
def AbortCause.number : AbortCause → Nat
  | .stepTimeout => 1 | .idMismatch => 2 | .sensor => 3 | .stop => 4 | .link => 5 | .cellAbort => 6 | .armAbort => 7

/-- A stop cause as kind, number and cause arm (R204); no cause is three zeros. -/
def stopCauseParts : Option StopCause → Nat × Nat × Nat
  | none => (0, 0, 0)
  | some (.rack b) => (1, b, 0)
  | some (.bay k arm) => (2, k, armCode arm)

/-- The seated field as R204 encodes it: 0 NONE, 1..40, 255 UNKNOWN. -/
def seatedCode : Seated → Nat
  | .noProbe => 0
  | .unknown => 255
  | .probe p => p

/-! ### Words (R202) -/

/-- A value in one word. -/
def word (v : Int) : List Word := [BitVec.ofInt 16 v]

/-- A value in two words, high word first. -/
def word2 (v : Int) : List Word := [BitVec.ofInt 16 (v / 65536), BitVec.ofInt 16 v]

/-- A flag in one word. -/
def flagWord (b : Bool) : List Word := word (flagCode b)

/-- A position of three two-word values. -/
def pointWords (p : Point) : List Word := word2 p.x ++ word2 p.y ++ word2 p.z

/-- A box: lower X, upper X, lower Y, upper Y, lower Z, upper Z, two words each. -/
def boxWords (b : Box) : List Word :=
  word2 b.lo.x ++ word2 b.hi.x ++ word2 b.lo.y ++ word2 b.hi.y ++ word2 b.lo.z ++ word2 b.hi.z

/-- A value that may be absent: a present word, then the value in two words, 0 when absent (as R203 lays out Tq). -/
def optionWords (v : Option Int) : List Word :=
  match v with
  | none => word 0 ++ word2 0
  | some x => word 1 ++ word2 x

/-- A timer's remaining time in one word, 0 when stopped. -/
def timerWord (t : Timer) : List Word := word (t.getD 0)

/-- A timer's remaining time in two words, 0 when stopped. -/
def timerWord2 (t : Timer) : List Word := word2 (t.getD 0)

end Sys2Proof.Machine

namespace Sys2Proof

/-! ### Boxes and points -/

/-- The box with every bound saturated, as a response carries an envelope (R3). R3 has a saturated result flagged in its response, and
the responses that carry an envelope have no field for a flag (R140, R156): the bounds are saturated without one (log entry 30,
DESIGN CHOICE). -/
def Box.saturated (b : Box) : Box :=
  ⟨⟨Machine.saturate b.lo.x, Machine.saturate b.lo.y, Machine.saturate b.lo.z⟩, ⟨Machine.saturate b.hi.x, Machine.saturate b.hi.y, Machine.saturate b.hi.z⟩⟩

/-- A box is empty on an axis when its lower bound there exceeds its upper bound (R2). -/
def Box.emptyOnAxis (b : Box) : Bool :=
  decide (b.hi.x < b.lo.x) || decide (b.hi.y < b.lo.y) || decide (b.hi.z < b.lo.z)

/-- A position lies inside a box, both bounds included (R2). -/
def Box.contains (b : Box) (p : Point) : Bool :=
  decide (b.lo.x ≤ p.x) && decide (p.x ≤ b.hi.x) && decide (b.lo.y ≤ p.y) && decide (p.y ≤ b.hi.y) &&
    decide (b.lo.z ≤ p.z) && decide (p.z ≤ b.hi.z)

/-- Two boxes overlap when on each axis neither's lower bound exceeds the other's upper bound (R151). -/
def Box.overlaps (b c : Box) : Bool :=
  decide (b.lo.x ≤ c.hi.x) && decide (c.lo.x ≤ b.hi.x) && decide (b.lo.y ≤ c.hi.y) && decide (c.lo.y ≤ b.hi.y) &&
    decide (b.lo.z ≤ c.hi.z) && decide (c.lo.z ≤ b.hi.z)

/-- The least box that holds two boxes. -/
def Box.hull (b c : Box) : Box :=
  ⟨⟨min b.lo.x c.lo.x, min b.lo.y c.lo.y, min b.lo.z c.lo.z⟩, ⟨max b.hi.x c.hi.x, max b.hi.y c.hi.y, max b.hi.z c.hi.z⟩⟩

/-- Each component clamped into the same range. -/
def Point.clamp (lo hi : Int) (p : Point) : Point := ⟨Machine.clampInt lo hi p.x, Machine.clampInt lo hi p.y, Machine.clampInt lo hi p.z⟩

/-- Each bound clamped into the same range (R140, step 4). -/
def Box.clamp (lo hi : Int) (b : Box) : Box := ⟨b.lo.clamp lo hi, b.hi.clamp lo hi⟩

/-- The component of a point along an axis. -/
def Point.along (p : Point) : Axis → Int
  | .x => p.x
  | .y => p.y
  | .z => p.z

end Sys2Proof
end

