-- ==== Sys2Proof/Machine/Ops.lean ====
section
/-! DEFINITION. The named operations over the records of the part: access to an arm, a probe, a port or a map; the notice set
(R197) and the attention output (R199); the free order; handing frames to an arm port (R190); the output queue and the
appending of responses (R193, R194); the stop outputs (R170). -/

namespace Sys2Proof.Machine

/-! ### Lists counted from 1 -/

/-- Entry number `k` of a list, counted from 1. -/
def nth {α : Type} (l : List α) (k : Nat) : Option α :=
  match k with
  | 0 => none
  | i + 1 => l[i]?

/-- The list with entry number `k`, counted from 1, changed. -/
def changeNth {α : Type} (l : List α) (k : Nat) (f : α → α) : List α :=
  match k with
  | 0 => l
  | i + 1 => l.modify i f

/-! ### The free order (log entry 3) -/

/-- Inserts a keyed item before the first item of a larger key. -/
def insertKeyed {α : Type} (x : Nat × α) : List (Nat × α) → List (Nat × α)
  | [] => [x]
  | y :: ys => if x.1 ≤ y.1 then x :: y :: ys else y :: insertKeyed x ys

/-- The items of a list in a free order: ascending in Config.freeKey at use number `n`. One item needs no order. -/
def freeOrder {α : Type} (n : Nat) (l : List α) : List α :=
  match l with
  | [] => []
  | [x] => [x]
  | x :: y :: rest =>
    (((x :: y :: rest).zipIdx.map (fun z => (Config.freeKey n z.2, z.1))).foldr insertKeyed []).map Prod.snd

/-! ### Access -/

/-- Everything held for an arm. -/
def Cell.arm (c : Cell) : ArmId → Arm
  | .armA => c.armA
  | .armB => c.armB

/-- One arm changed. -/
def Cell.modArm (c : Cell) (a : ArmId) (f : Arm → Arm) : Cell :=
  match a with
  | .armA => { c with armA := f c.armA }
  | .armB => { c with armB := f c.armB }

/-- The port record, the sequencer and the rack of one arm changed. -/
def Cell.modPort (c : Cell) (a : ArmId) (f : ArmPort → ArmPort) : Cell :=
  c.modArm a (fun m => { m with port := f m.port })

def Cell.modSeq (c : Cell) (a : ArmId) (f : Sequencer → Sequencer) : Cell :=
  c.modArm a (fun m => { m with seq := f m.seq })

def Cell.modRack (c : Cell) (a : ArmId) (f : Rack → Rack) : Cell :=
  c.modArm a (fun m => { m with rack := f m.rack })

/-- The arm's mode (R177). -/
def Cell.mode (c : Cell) (a : ArmId) : Mode := (c.arm a).port.mode

/-- The arm is in RUN. -/
def Cell.running (c : Cell) (a : ArmId) : Bool := (c.arm a).port.mode == .run

/-- The arm is OFF. -/
def Cell.isOff (c : Cell) (a : ArmId) : Bool := (c.arm a).port.mode == .off

/-- A probe record by number (R89). -/
def Cell.probe (c : Cell) (p : Nat) : Probe := c.probes.get p Probe.reset

def Cell.modProbe (c : Cell) (p : Nat) (f : Probe → Probe) : Cell :=
  { c with probes := c.probes.set p (f (c.probe p)) }

/-- A configured port record of an arm's rack (R111). -/
def Cell.port? (c : Cell) (a : ArmId) (k : Nat) : Option Port := nth (c.arm a).rack.ports k

/-- One port record changed. -/
def Cell.modRackPort (c : Cell) (a : ArmId) (k : Nat) (f : Port → Port) : Cell :=
  c.modRack a (fun r => { r with ports := changeNth r.ports k f })

/-- The map record of an axis. -/
def ArmMaps.get (m : ArmMaps) : Axis → MapRecord
  | .x => m.x
  | .y => m.y
  | .z => m.z

def ArmMaps.set (m : ArmMaps) (k : Axis) (r : MapRecord) : ArmMaps :=
  match k with
  | .x => { m with x := r }
  | .y => { m with y := r }
  | .z => { m with z := r }

/-- An arm's datum in the workpiece record (R12). -/
def Workpiece.datum (w : Workpiece) : ArmId → Point
  | .armA => w.datumA
  | .armB => w.datumB

/-! ### Sequencer state -/

/-- The sequencer is in CYCLE. -/
def SeqState.inCycle : SeqState → Bool
  | .cycle _ _ => true
  | _ => false

/-- The change plan, present in CYCLE and CHANGE_FAULT (R122). -/
def SeqState.plan? : SeqState → Option Plan
  | .idle => none
  | .cycle _ p => some p
  | .changeFault _ _ p => some p

/-- Port `k` is named as drop port or pick port by the plan (R115). -/
def Plan.names (p : Plan) (k : Nat) : Bool := p.drop == some k || p.pick == some k

/-- Port `k` is a plan port of the arm (R115). -/
def Cell.isPlanPort (c : Cell) (a : ArmId) (k : Nat) : Bool :=
  match (c.arm a).seq.state.plan? with
  | none => false
  | some p => p.names k

/-! ### Notices (R197) and the attention output (R199) -/

/-- The place of a notice's cause in the table of R197, from 1. -/
def Notice.place : Notice → Nat
  | .nodeAnnounced _ => 1
  | .nodeOffline _ => 2
  | .busFault _ => 3
  | .channelFault _ => 4
  | .groupLost _ => 5
  | .tipDrifted _ _ => 6
  | .tipDue _ _ => 7
  | .probeSuspect _ => 8
  | .portMismatch _ _ => 9
  | .probeRemoved _ => 10
  | .changeDone _ => 11
  | .changeFault _ _ _ => 12
  | .stepSlow _ _ => 13
  | .intrusion _ _ => 14
  | .armLink _ _ => 15
  | .frameError _ _ => 16

/-- The entry of a cause after one more occurrence: a new entry with this argument and count 1, or the first argument kept
and the count incremented, 255 staying 255 (R197). -/
def bumpEntry (n : Notice) : Option NoticeEntry → NoticeEntry
  | none => ⟨n, 1⟩
  | some e => ⟨e.notice, if e.count < 255 then e.count + 1 else e.count⟩

/-- A block adds a cause to the notice set (R197). -/
def Cell.addNotice (c : Cell) (n : Notice) : Cell :=
  { c with notices := c.notices.set n.place (some (bumpEntry n (c.notices.get n.place none))) }

/-- The entries of the notice set, in the order of the table of R197. -/
def Cell.noticeList (c : Cell) : List NoticeEntry := c.notices.val.filterMap id

/-- The attention output: asserted while the notice set is non-empty and no hold runs (R199). -/
def Device.attention (d : Device) : Bool := !d.cell.noticeList.isEmpty && d.link.hold.isNone

/-- The stop output of an arm: asserted whenever the arm is not RUN or its stop latch is set (R170). -/
def Cell.stopOutput (c : Cell) (a : ArmId) : Bool := !c.running a || (c.arm a).stop.isSome

/-! ### Frames of an arm link (R190) -/

/-- A port with one more frame handed over; a frame handed over to a full list is dropped and counted. -/
def ArmPort.handOver (p : ArmPort) (f : TxFrame) : ArmPort :=
  if p.transmit.length < Config.transmitRoom then { p with transmit := p.transmit ++ [f] }
  else { p with dropped := if p.dropped < 255 then p.dropped + 1 else p.dropped }

/-- A frame is handed to the arm port of `a`. -/
def Cell.handOver (c : Cell) (a : ArmId) (f : TxFrame) : Cell := c.modPort a (fun p => p.handOver f)

/-- GRANT, CHANGE_STEP, CHANGE_END and STOP are handed over only while the arm is RUN. -/
def Cell.message (c : Cell) (a : ArmId) (f : TxFrame) : Cell := if c.running a then c.handOver a f else c

/-- The response with a status and two values of a request of kinds 18..25 (R204). -/
def Cell.respond (c : Cell) (a : ArmId) (kind : ShortKind) (tag : Nat) (status : Status) (first second : Nat) : Cell :=
  c.handOver a (.shortResponse kind tag status first second)

/-! ### Cell link: output queue and responses (R193, R194) -/

/-- What a served command leaves: the part, the status and the body of the response. -/
structure Served where
  dev : Device
  status : Status
  body : List Word

/-- A refused command changes no record and carries no body (R195). -/
def Served.refuse (d : Device) (status : Status) : Served := ⟨d, status, []⟩

/-- The words that a frame of `n` words clocks out leave the queue (R193). -/
def CellLink.clockOut (l : CellLink) (n : Nat) : CellLink := { l with queue := l.queue.drop n }

/-- The words that the part clocks out in the next `n` words of a frame: the queue from its oldest word, then idle words (R193). -/
def CellLink.wordsOut (l : CellLink) (n : Nat) : List Word :=
  (l.queue ++ List.replicate n (BitVec.ofNat 16 Config.idleWord)).take n

/-- The free words of the output queue (R194). -/
def CellLink.room (l : CellLink) : Nat := Config.outQueueRoom - l.queue.length

/-- A response: the three-word header and the body (R202). -/
def responseWords (code : Word) (status : Status) (reason : Nat) (overflow : Bool) (body : List Word) : List Word :=
  code :: BitVec.ofNat 16 (status.number + 256 * reason + 32768 * flagCode overflow)
    :: BitVec.ofNat 16 (Config.shortResponse + body.length) :: body

/-- A whole response joins the output queue; its header carries the overflow mark, which is cleared (R193, R194). -/
def CellLink.append (l : CellLink) (code : Word) (status : Status) (reason : Nat) (body : List Word) : CellLink :=
  { l with queue := l.queue ++ responseWords code status reason l.overflow body, overflow := false }

/-- A three-word response joins the queue if it fits; otherwise the overflow mark is set (R194). -/
def CellLink.appendShort (l : CellLink) (code : Word) (status : Status) (reason : Nat) : CellLink :=
  if Config.shortResponse ≤ l.room then l.append code status reason [] else { l with overflow := true }

/-- A command frame of `words` words at its end event: its words are clocked out, the room is tested, and the command is
served and answered, or answered BUSY, or marked (R193, R194). -/
def Device.command (d : Device) (code : Word) (words : Nat) (serve : Device → Served) : Device :=
  let d := { d with link := d.link.clockOut words }
  if Config.serveRoom ≤ d.link.room then
    let r := serve d
    { r.dev with link := r.dev.link.append code r.status 0 r.body }
  else { d with link := d.link.appendShort code .busy 0 }

/-! ### The machine -/

/-- An event of the part: while the reset input is asserted it is disregarded (R201). -/
def Device.live (d : Device) (f : Device → Device) : Device := if d.link.held then d else f d

/-- The outcome of an event: the part changed, the queue of commands untouched. -/
def State.event (s : State) (f : Device → Device) : Host.Outcome State Fault Refusal :=
  .next { s with dev := s.dev.live f }

/-- The outcome of a cell command of `words` words. -/
def State.command (s : State) (code : Word) (words : Nat) (serve : Device → Served) : Host.Outcome State Fault Refusal :=
  s.event (fun d => d.command code words serve)

/-- A change of the arms, probes, bays and notices alone. -/
def Device.onCell (d : Device) (f : Cell → Cell) : Device := { d with cell := f d.cell }

/-- The use of a free order is counted, so that the next use has keys of its own. -/
def Device.countFree (d : Device) : Device := { d with freeCount := d.freeCount + 1 }

end Sys2Proof.Machine
end

