-- ==== Sys2Proof/Machine/Envelope.lean ====
section
/-! DEFINITION. The geometry that the envelope unit and the bay arbiter judge by: probe boxes (R93), the effective envelope
(R142), the box used for an arm (R143), rack boxes and which are open (R141, R145, R146), and the bays that an arm needs
(R159). Nothing here changes a record. -/

namespace Sys2Proof.Machine

/-- The box of one tip: offset − radius to offset + radius on each axis (R93). -/
def Tip.box (t : Tip) : Box :=
  ⟨⟨t.offset.x - t.radius, t.offset.y - t.radius, t.offset.z - t.radius⟩,
   ⟨t.offset.x + t.radius, t.offset.y + t.radius, t.offset.z + t.radius⟩⟩

/-- The probe box: the least box that holds the box of every tip, whatever its state (R93); zero without tips (R203). -/
def tipsBox : List Tip → Box
  | [] => Box.zero
  | t :: ts => ts.foldl (fun b u => b.hull u.box) t.box

def Probe.box (p : Probe) : Box := tipsBox p.tips

/-- The effective envelope of an arm for a probe box (R142), formed exactly. -/
def effectiveEnvelope (s : ArmSettings) (b : Box) : Box :=
  ⟨⟨max s.carriage.lo.x (s.volume.lo.x - b.lo.x), max s.carriage.lo.y (s.volume.lo.y - b.lo.y),
    max s.carriage.lo.z (s.volume.lo.z - b.lo.z)⟩,
   ⟨min s.carriage.hi.x (s.volume.hi.x - b.hi.x), min s.carriage.hi.y (s.volume.hi.y - b.hi.y),
    min s.carriage.hi.z (s.volume.hi.z - b.hi.z)⟩⟩

/-- The box that R143 gives for a seated field. -/
def Cell.boxFor (c : Cell) (a : ArmId) : Seated → Box
  | .noProbe => Box.zero
  | .unknown => (c.arm a).settings.unknownBox
  | .probe p => (c.probe p).box

/-- The box used for an arm (R143). -/
def Cell.usedBox (c : Cell) (a : ArmId) : Box := c.boxFor a (c.arm a).seq.seated

/-- The effective envelope of an arm for a seated field (R142, R143). -/
def Cell.envelopeFor (c : Cell) (a : ArmId) (seated : Seated) : Box :=
  effectiveEnvelope (c.arm a).settings (c.boxFor a seated)

/-- The arm's effective envelope as it stands (R142, R143). -/
def Cell.envelope (c : Cell) (a : ArmId) : Box := c.envelopeFor a (c.arm a).seq.seated

/-! ### Rack boxes (R141, R145, R146) -/

/-- The number of ports of an arm's rack. -/
def Arm.portCount (m : Arm) : Nat := m.rack.ports.length

/-- Rack box 0 is the staging box, rack box k the approach box of port k (R141). -/
def Arm.rackBox (m : Arm) (b : Nat) : Option Box :=
  match b with
  | 0 => some m.settings.staging
  | k + 1 => (m.rack.ports[k]?).map (fun p => p.box)

/-- A position lies inside rack box `b` of an arm. -/
def Arm.insideRackBox (m : Arm) (b : Nat) (p : Point) : Bool :=
  match m.rackBox b with
  | none => false
  | some box => box.contains p

/-- The rack box numbers of an arm, ascending (R141). -/
def Arm.rackBoxNumbers (m : Arm) : List Nat := List.range (m.portCount + 1)

/-- The rack boxes that a step opens: the staging box, and the port at which the step stands (R145). -/
def stepOpens (step : Step) (p : Plan) : List Nat :=
  match step with
  | .stageIn | .stageOut => [0]
  | .dropDock | .dropRelease | .dropDepart => 0 :: p.drop.toList
  | .pickDock | .pickEngage | .pickDepart => 0 :: p.pick.toList

/-- The rack boxes that the sequencer's state opens (R145). -/
def SeqState.opens : SeqState → List Nat
  | .idle => []
  | .cycle step p => stepOpens step p
  | .changeFault _ step p => stepOpens step p

/-- Rack box `b` is open to the arm: opened by the sequencer's state, or in the exit set outside CYCLE (R145). -/
def Arm.isOpen (m : Arm) (b : Nat) : Bool :=
  m.seq.state.opens.contains b || (!m.seq.state.inCycle && m.exitSet.contains b)

/-- The rack boxes open to the arm, ascending (R156). -/
def Arm.openBoxes (m : Arm) : List Nat := m.rackBoxNumbers.filter (fun b => m.isOpen b)

/-- The closed rack boxes that hold a position, ascending (R147). -/
def Arm.closedBoxesAt (m : Arm) (p : Point) : List Nat :=
  m.rackBoxNumbers.filter (fun b => !m.isOpen b && m.insideRackBox b p)

/-- The closed rack boxes that a box overlaps, ascending (R151). -/
def Arm.closedBoxesOver (m : Arm) (swept : Box) : List Nat :=
  m.rackBoxNumbers.filter (fun b => !m.isOpen b && match m.rackBox b with | none => false | some box => box.overlaps swept)

/-! ### Bays (R157, R159) -/

/-- The holder of bay `k` (R157): none for a FREE bay and for a bay that does not exist. -/
def Bays.holder (b : Bays) (k : Nat) : Option ArmId := (b.holders[k]?).getD none

/-- Bay `k` is the interval from X0 + k·w included to X0 + (k+1)·w excluded; it meets the footprint `lo..hi` (R157, R159). -/
def Bays.meets (b : Bays) (lo hi : Int) (k : Nat) : Bool :=
  decide (b.origin + k * b.width ≤ hi) && decide (lo < b.origin + (k + 1) * b.width)

/-- The bays that a footprint needs, ascending (R159). -/
def Bays.needed (b : Bays) (lo hi : Int) : List Nat := (List.range b.holders.length).filter (b.meets lo hi)

/-- The arm is extended when the upper Z bound it reaches exceeds its safe depth (R152, R159). -/
def extended (s : ArmSettings) (box : Box) (z : Int) : Bool := decide (s.safeDepth < z + box.hi.z)

/-- The lower end of the footprint of an arm between carriage positions `x` in common X (R152, R159). -/
def footprintLow (s : ArmSettings) (box : Box) (x : Int) : Int := x + s.bayOffset + box.lo.x - s.margin

/-- The upper end of the footprint (R152, R159). -/
def footprintHigh (s : ArmSettings) (box : Box) (x : Int) : Int := x + s.bayOffset + box.hi.x + s.margin

/-- The bays that an arm with box `box` needs from carriage x `xlo..xhi` at upper Z `z` (R152, R159). -/
def Bays.neededBy (b : Bays) (s : ArmSettings) (box : Box) (xlo xhi z : Int) : List Nat :=
  if extended s box z then b.needed (footprintLow s box xlo) (footprintHigh s box xhi) else []

/-- The bays that arm `a` needs at a carriage position, with the box that stands (R159). -/
def Cell.needs (c : Cell) (a : ArmId) (p : Point) : List Nat :=
  c.bays.neededBy (c.arm a).settings (c.usedBox a) p.x p.x p.z

/-- The bays of a list that arm `a` does not hold: the missing ones (R159). -/
def Bays.missing (b : Bays) (a : ArmId) (l : List Nat) : List Nat := l.filter (fun k => b.holder k != some a)

/-- The bays that arm `a` needs at a position and does not hold (R171). -/
def Cell.missingAt (c : Cell) (a : ArmId) (p : Point) : List Nat := c.bays.missing a (c.needs a p)

end Sys2Proof.Machine
end

