-- ==== Sys2Proof/Machine/Latches.lean ====
section
/-! DEFINITION. What ties the racks, the probes, the change sequencers and the stop latches together: probe locations and
retirement (R97, R109, R119), the latch-release output and its mask (R114), manual events (R116, R117), setting a stop latch
(R169), the bay test (R171, R172) and the abort of a change (R133 to R135). Setting a latch may abort a change, and an abort
may set latches: the two meet in `setStopFuel`, whose fuel three is never used up, since each abort ends one of the two
arms' cycles. -/

namespace Sys2Proof.Machine

/-! ### Probe locations -/

/-- A port EXPECTING the probe becomes EMPTY (R109, R119). -/
def Port.dropExpectation (p : Nat) (port : Port) : Port :=
  if port.state = .expecting p then { port with state := .empty } else port

/-- A port VACANT for the probe becomes EMPTY (R97, R119). -/
def Port.dropVacancy (p : Nat) (port : Port) : Port :=
  if port.state = .vacant p then { port with state := .empty } else port

/-- The expectation of a probe ends on the rack of an arm (R119). -/
def Cell.dropExpectation (c : Cell) (a : ArmId) (p : Nat) : Cell :=
  c.modRack a (fun r => { r with ports := r.ports.map (Port.dropExpectation p) })

/-- The return place of a probe ends on the rack of an arm (R119). -/
def Cell.dropVacancy (c : Cell) (a : ArmId) (p : Nat) : Cell :=
  c.modRack a (fun r => { r with ports := r.ports.map (Port.dropVacancy p) })

/-- A record becomes FREE: it takes its reset values and a port EXPECTING it becomes EMPTY (R109). -/
def Cell.freeProbe (c : Cell) (p : Nat) : Cell :=
  (c.dropExpectation (c.probe p).home p).modProbe p (fun _ => Probe.reset)

/-- The location of a probe becomes OUT: a RETIRING probe becomes FREE (R97, R109). -/
def Cell.probeOut (c : Cell) (p : Nat) : Cell :=
  if (c.probe p).state = .retiring then c.freeProbe p else c.modProbe p (fun r => { r with location := .out })

/-- The location of a probe becomes another place than OUT (R97). -/
def Cell.placeProbe (c : Cell) (p : Nat) (l : Location) : Cell := c.modProbe p (fun r => { r with location := l })

/-- A probe that a plan may name takes a location (R97). -/
def Cell.placeNamed (c : Cell) (p : Option Nat) (l : Location) : Cell :=
  match p with
  | none => c
  | some n => c.placeProbe n l

/-- The state of a port that a plan may name. -/
def Cell.setPortState (c : Cell) (a : ArmId) (k : Option Nat) (st : PortState) : Cell :=
  match k with
  | none => c
  | some n => c.modRackPort a n (fun p => { p with state := st })

/-! ### The latch-release output (R114) -/

/-- A mask starts: it runs for the mask time and the filter timers of the arm's lines stop (R114). -/
def Rack.startMask (r : Rack) : Rack :=
  if r.params.maskTime = 0 then r
  else { r with
    maskTimer := some r.params.maskTime
    ports := r.ports.map (fun p => { p with occupiedFilter := none, headFilter := none }) }

/-- The latch-release output takes a level; a change of level starts a mask (R114). -/
def Cell.setLatch (c : Cell) (a : ArmId) (level : Bool) : Cell :=
  if (c.arm a).seq.latch = level then c
  else (c.modSeq a (fun q => { q with latch := level })).modRack a Rack.startMask

/-! ### The sequencer's state and the exit set (R146) -/

/-- The exit set after a change of the sequencer's state: emptied on entering CYCLE; on leaving CYCLE or CHANGE_FAULT, each
rack box that the old state opened and the new one does not joins it if the last sample lies inside (R146). -/
def Arm.exitSetAfter (m : Arm) (st : SeqState) : List Nat :=
  if st.inCycle then (if m.seq.state.inCycle then m.exitSet else [])
  else
    match m.lastSample with
    | none => m.exitSet
    | some p =>
      m.exitSet ++ m.seq.state.opens.filter
        (fun b => !st.opens.contains b && m.insideRackBox b p && !m.exitSet.contains b)

/-- The sequencer takes another state, and the exit set follows (R122, R146). -/
def Cell.setSeqState (c : Cell) (a : ArmId) (st : SeqState) : Cell :=
  c.modArm a (fun m => { m with exitSet := m.exitSetAfter st, seq := { m.seq with state := st } })

/-! ### Manual events (R116, R117) -/

/-- A taken OCCUPIED change at a port, as a manual event (R116). -/
def Cell.manualOccupied (c : Cell) (a : ArmId) (k : Nat) (level : Bool) : Cell :=
  match c.port? a k with
  | none => c
  | some port =>
    match level, port.state with
    | true, .empty => (c.setPortState a (some k) .unknown).addNotice (.portMismatch a k)
    | true, .expecting p => (c.setPortState a (some k) (.holding p)).placeProbe p (.rack k)
    | true, .vacant _ => (c.setPortState a (some k) .unknown).addNotice (.portMismatch a k)
    | false, .holding p => ((c.setPortState a (some k) .empty).probeOut p).addNotice (.probeRemoved p)
    | false, .unknown => c.setPortState a (some k) .empty
    | _, _ => c

/-- A taken HEAD change at a port, as a manual event: HEAD set asks for the stop latch with cause RACK (R117). -/
def manualHead (latch : ArmId → StopCause → Cell → Cell) (c : Cell) (a : ArmId) (k : Nat) (level : Bool) : Cell :=
  if level then latch a (.rack k) c else c

/-! ### Stop latches (R169) and the bay test (R171, R172) -/

/-- A clear latch is set: it takes the cause, which asserts the stop output (R170); STOP goes to the arm's port while the arm
is RUN; the notice INTRUSION is added. A set latch keeps its first cause (R169). -/
def Cell.latchStop (c : Cell) (a : ArmId) (cause : StopCause) : Cell :=
  if (c.arm a).stop.isSome then c
  else ((c.modArm a (fun m => { m with stop := some cause })).message a (.stop cause)).addNotice (.intrusion a cause)

/-- The bay intrusion test of arm `a` at a position: a missing bay sets the arm's latch, and the other arm's when that arm
holds a missing bay, the intruder's first (R171). -/
def bayTest (latch : ArmId → StopCause → Cell → Cell) (c : Cell) (a : ArmId) (p : Point) : Cell :=
  match c.missingAt a p with
  | [] => c
  | k :: rest =>
    let c1 := latch a (.bay k a) c
    match (k :: rest).find? (fun j => c.bays.holder j == some a.other) with
    | none => c1
    | some j => latch a.other (.bay j a) c1

/-- The test again after a change of the box used, when the arm is RUN and has a last sample (R172). -/
def bayRetest (latch : ArmId → StopCause → Cell → Cell) (c : Cell) (a : ArmId) : Cell :=
  if c.running a then
    match (c.arm a).lastSample with
    | none => c
    | some p => bayTest latch c a p
  else c

/-! ### Aborts (R133 to R135) -/

/-- The steps in which the latch has acted: an abort there enters CHANGE_FAULT (R135), elsewhere IDLE (R134). -/
def Step.acted : Step → Bool
  | .dropRelease | .dropDepart | .pickEngage | .pickDepart => true
  | .stageIn | .dropDock | .pickDock | .stageOut => false

/-- What every abort and every end of a change does to the timers, the engage flag and the progress (R126, R127, R130, R133). -/
def Sequencer.quiet (q : Sequencer) : Sequencer :=
  { q with
    engage := false, dropOccupied := false, dropId := false, pickOccupied := false, pickHead := false
    stepTimer := none, engageTimer := none }

/-- The plan ports, in ascending number (R134). -/
def Plan.ports (p : Plan) : List Nat :=
  match p.drop, p.pick with
  | none, none => []
  | some d, none => [d]
  | none, some k => [k]
  | some d, some k => if d < k then [d, k] else if k < d then [k, d] else [d]

/-- A port state whose cradle is occupied (R111). -/
def PortState.isOccupied : PortState → Bool
  | .holding _ | .unknown => true
  | .empty | .expecting _ | .vacant _ | .disabled => false

/-- A former plan port returns to manual events: a disagreement of its state with its taken OCCUPIED level is dispatched as
if the change were taken now, and a set HEAD level sets the stop latch (R134). -/
def returnPort (latch : ArmId → StopCause → Cell → Cell) (a : ArmId) (c : Cell) (k : Nat) : Cell :=
  match c.port? a k with
  | none => c
  | some port =>
    let c1 := if port.state ≠ .disabled ∧ port.state.isOccupied ≠ port.occupied then c.manualOccupied a k port.occupied else c
    manualHead latch c1 a k port.head

/-- The records of an abort into CHANGE_FAULT: the seated field UNKNOWN, the plan probes UNRESOLVED, the plan ports UNKNOWN,
the latch-release output as it stands (R135). -/
def Cell.faultChange (c : Cell) (a : ArmId) (cause : AbortCause) (step : Step) (p : Plan) : Cell :=
  let c := c.setSeqState a (.changeFault cause step p)
  let c := c.modSeq a (fun q => { q with seated := .unknown })
  let c := (c.placeNamed p.old .unresolved).placeNamed p.target .unresolved
  (c.setPortState a p.drop .unknown).setPortState a p.pick .unknown

/-- An abort of the change in CYCLE as far as the CHANGE_END: timers and progress end, CHANGE_FAULT is noted, the sequencer goes
to CHANGE_FAULT (R135) or to IDLE (R134), CHANGE_END is handed over unless the cause is LINK (R133). -/
def Cell.afterAbort (c : Cell) (a : ArmId) (cause : AbortCause) (step : Step) (p : Plan) : Cell :=
  let c := (c.modSeq a Sequencer.quiet).addNotice (.changeFault a cause step)
  let c := if step.acted then c.faultChange a cause step p else c.setSeqState a .idle
  if cause = .link then c else c.message a (.changeEnd (.aborted cause step))

/-- An abort of the change in CYCLE (R133); after its records and messages the re-test of R172 or the dispatches of R134. No effect
outside CYCLE. -/
def abortChange (latch : ArmId → StopCause → Cell → Cell) (a : ArmId) (cause : AbortCause) (c : Cell) : Cell :=
  match (c.arm a).seq.state with
  | .idle => c
  | .changeFault _ _ _ => c
  | .cycle step p =>
    let c := c.afterAbort a cause step p
    if step.acted then bayRetest latch c a else p.ports.foldl (returnPort latch a) c

/-- Setting a stop latch, with the abort of the change that follows (R169). Fuel bounds the chain of aborts. -/
def setStopFuel : Nat → ArmId → StopCause → Cell → Cell
  | 0, a, cause, c => c.latchStop a cause
  | n + 1, a, cause, c =>
    if (c.arm a).stop.isSome then c else abortChange (setStopFuel n) a .stop (c.latchStop a cause)

/-- Setting a stop latch (R169). -/
def setStop (a : ArmId) (cause : StopCause) (c : Cell) : Cell := setStopFuel 3 a cause c

/-- Aborting a change (R133). -/
def Cell.abort (c : Cell) (a : ArmId) (cause : AbortCause) : Cell := abortChange setStop a cause c

/-- The re-test of R172. -/
def Cell.retest (c : Cell) (a : ArmId) : Cell := bayRetest setStop c a

/-! ### Leaving RUN (R187) -/

/-- The request queue and the transmit list are discarded, except the frame in transmission, the oldest (R187, log entry 6). -/
def ArmPort.discard (p : ArmPort) : ArmPort := { p with queue := [], transmit := p.transmit.take 1 }

/-- An arm leaves RUN for a mode and phase: the mode first, then the wait slot, the change (cause LINK), the last sample and
exit set, the queues and the silence timer (R187, R165, R144). -/
def Cell.leaveRun (c : Cell) (a : ArmId) (mode : Mode) (phase : Option Phase) : Cell :=
  let c := c.modArm a (fun m => { m with wait := none, port := { m.port with mode := mode, phase := phase } })
  let c := c.abort a .link
  c.modArm a (fun m =>
    { m with
      lastSample := none
      exitSet := []
      port := { m.port.discard with silenceTimer := none, phaseTimer := none } })

end Sys2Proof.Machine
end

