-- ==== Sys2Proof/Machine/Bays.lean ====
section
/-! DEFINITION. The bay arbiter: BAY_CONFIG (R158), the services of RESERVE (R160 to R162) and RELEASE (R167), the grant of a
waiting range (R163), the wait timer (R164), BAY_CLEAR (R168), STOP_RELEASE (R173, R174) and READ_BAYS (R176). -/

namespace Sys2Proof.Machine

/-- The bay records changed. -/
def Cell.onBays (c : Cell) (f : Bays → Bays) : Cell := { c with bays := f c.bays }

/-- The number of bays. -/
def Bays.count (b : Bays) : Nat := b.holders.length

/-! ### BAY_CONFIG (R158) -/

/-- Some bay is held. -/
def Bays.anyHeld (b : Bays) : Bool := b.holders.any (fun h => h.isSome)

/-- BAY_CONFIG (R158). -/
def serveBayConfig (count : Nat) (origin width : Int) (d : Device) : Served :=
  let w := clampInt 10000 10000000 width
  if count < 1 ∨ 32 < count then .refuse d .badArg
  else if !d.cell.isOff .armA || !d.cell.isOff .armB then .refuse d .badState
  else if d.cell.bays.anyHeld then .refuse d .inUse
  else if Config.positionHigh < origin + count * w then .refuse d .badArg
  else
    ⟨d.onCell (fun c => c.onBays (fun _ => ⟨origin, w, List.replicate count none⟩)), clampStatus (w != width),
     word count ++ word2 origin ++ word2 w⟩

/-! ### Ranges -/

/-- The bay indices `first..last`, ascending. -/
def rangeOf (first last : Nat) : List Nat := List.range' first (last + 1 - first)

/-- Bay `k` is held by another arm than `a`: it is neither FREE nor held by `a`. -/
def Bays.heldByOther (b : Bays) (a : ArmId) (k : Nat) : Bool := b.holder k == some a.other

/-- Every bay of a range becomes held by an arm (R161, R163). -/
def Bays.grant (b : Bays) (a : ArmId) (first last : Nat) : Bays :=
  { b with holders := b.holders.zipIdx.map (fun x => if first ≤ x.2 ∧ x.2 ≤ last then some a else x.1) }

/-- The bays of a range held by an arm become FREE (R167). -/
def Bays.free (b : Bays) (a : ArmId) (first last : Nat) : Bays :=
  { b with holders := b.holders.zipIdx.map (fun x => if first ≤ x.2 ∧ x.2 ≤ last ∧ x.1 = some a then none else x.1) }

/-- The number of bays of a range held by an arm (R167). -/
def Bays.heldIn (b : Bays) (a : ArmId) (first last : Nat) : Nat :=
  ((rangeOf first last).filter (fun k => b.holder k == some a)).length

/-! ### RESERVE (R160 to R162) -/

/-- The wait slot of an arm. -/
def Cell.setWait (c : Cell) (a : ArmId) (w : Option WaitSlot) : Cell := c.modArm a (fun m => { m with wait := w })

/-- The indices of a request do not name a range of bays (R160, R167). -/
def Bays.badRange (b : Bays) (first last : Nat) : Bool :=
  decide (b.count ≤ first) || decide (b.count ≤ last) || decide (last < first)

/-- The status with which RESERVE is refused, none if it is decided (R160). -/
def Cell.reserveRefusal (c : Cell) (a : ArmId) (first last wait : Nat) : Option Status :=
  if !c.running a then some .badState
  else if (c.arm a).stop.isSome then some .stopped
  else if c.bays.badRange first last ∨ 10000 < wait then some .badArg
  else if (c.arm a).wait.isSome then some .pending
  else none

/-- The lowest bay held by arm `a` in the other arm's waiting range (R161, Conflict). -/
def Cell.conflictBay (c : Cell) (a : ArmId) : Option Nat :=
  match (c.arm a.other).wait with
  | none => none
  | some w => (rangeOf w.first w.last).find? (fun k => c.bays.holder k == some a)

/-- Service of RESERVE (R160, R161, R162). -/
def serveReserve (a : ArmId) (tag first last wait : Nat) (c : Cell) : Cell :=
  match c.reserveRefusal a first last wait with
  | some st => c.respond a .reserve tag st 0 0
  | none =>
    match (rangeOf first last).find? (c.bays.heldByOther a) with
    | none => (c.onBays (fun b => b.grant a first last)).respond a .reserve tag .granted first last
    | some k =>
      if wait = 0 then c.respond a .reserve tag .busy k 0
      else
        match c.conflictBay a with
        | some j => c.respond a .reserve tag .conflict j 0
        | none => c.setWait a (some ⟨tag, first, last, some wait⟩)

/-! ### Grants and releases (R163, R164, R167, R168) -/

/-- Bays have become FREE: the waiting range of arm `b` is granted if none of it is held by the other arm (R163). -/
def Cell.testWait (c : Cell) (b : ArmId) : Cell :=
  match (c.arm b).wait with
  | none => c
  | some w =>
    if (rangeOf w.first w.last).all (fun k => !c.bays.heldByOther b k) then
      ((c.onBays (fun x => x.grant b w.first w.last)).setWait b none).message b (.grant w.tag .granted w.first w.last)
    else c

/-- The bays of a range held by `a` become FREE, and the other arm's wait slot is tested if one did (R163, R167, R168). -/
def Cell.freeBays (c : Cell) (a : ArmId) (first last : Nat) : Cell :=
  let c1 := c.onBays (fun b => b.free a first last)
  if c.bays.heldIn a first last = 0 then c1 else c1.testWait a.other

/-- The lowest bay of a range that the arm's last sample needs (R167, step 3). -/
def Cell.standsOver (c : Cell) (a : ArmId) (first last : Nat) : Option Nat :=
  match (c.arm a).lastSample with
  | none => none
  | some u => (c.needs a u).find? (fun k => decide (first ≤ k) && decide (k ≤ last))

/-- Service of RELEASE (R167). -/
def serveRelease (a : ArmId) (tag first last : Nat) (c : Cell) : Cell :=
  if !c.running a then c.respond a .release tag .badState 0 0
  else if c.bays.badRange first last then c.respond a .release tag .badArg 0 0
  else
    match c.standsOver a first last with
    | some k => c.respond a .release tag .inUse k 0
    | none => (c.respond a .release tag .ok (c.bays.heldIn a first last) 0).freeBays a first last

/-- Expiry of the wait timer (R164). -/
def Cell.waitExpiry (c : Cell) (a : ArmId) : Cell :=
  match (c.arm a).wait with
  | none => c
  | some w => (c.setWait a none).message a (.grant w.tag .timeout w.first w.last)

/-- BAY_CLEAR (R168). -/
def serveBayClear (arm : Nat) (d : Device) : Served :=
  match armOfCode arm with
  | none => .refuse d .badArg
  | some a =>
    if !d.cell.isOff a then .refuse d .badState
    else
      let last := d.cell.bays.count - 1
      ⟨d.onCell (fun c => c.freeBays a 0 last), .ok, word (d.cell.bays.heldIn a 0 last)⟩

/-! ### STOP_RELEASE (R148, R173, R174) -/

/-- The taken HEAD level of port `b` is set; box 0 is no port's. -/
def Cell.headSet (c : Cell) (a : ArmId) (b : Nat) : Bool :=
  match c.port? a b with
  | none => false
  | some p => p.head

/-- The arm's last sample lies inside rack box `b`, which is closed (R148). -/
def Arm.sampleInClosed (m : Arm) (b : Nat) : Bool :=
  match m.lastSample with
  | none => false
  | some u => m.insideRackBox b u && !m.isOpen b

/-- A stop cause holds (R148, R173). -/
def Cell.causeHolds (c : Cell) (a : ArmId) : StopCause → Bool
  | .rack b => c.headSet a b || (c.arm a).sampleInClosed b
  | .bay k n =>
    match (c.arm n).lastSample with
    | none => false
    | some u => (c.missingAt n u).contains k

/-- The cause that the arm's own last sample gives, a rack box before a bay (R174, step 4, log entry 23). -/
def Cell.ownCause (c : Cell) (a : ArmId) : Option StopCause :=
  match (c.arm a).lastSample with
  | none => none
  | some u =>
    match (c.arm a).closedBoxesAt u with
    | b :: _ => some (.rack b)
    | [] =>
      match c.missingAt a u with
      | k :: _ => some (.bay k a)
      | [] => none

/-- A stop cause as kind, number and cause arm (R202). -/
def stopCauseWords (cause : Option StopCause) : List Word :=
  word (stopCauseParts cause).1 ++ word (stopCauseParts cause).2.1 ++ word (stopCauseParts cause).2.2

/-- STOP_RELEASE (R174). -/
def serveStopRelease (arm : Nat) (d : Device) : Served :=
  match armOfCode arm with
  | none => .refuse d .badArg
  | some a =>
    match (d.cell.arm a).stop with
    | none => .refuse d .notFaulted
    | some cause =>
      if d.cell.causeHolds a cause then ⟨d, .causePresent, stopCauseWords (some cause)⟩
      else
        match d.cell.ownCause a with
        | some own => ⟨d, .causePresent, stopCauseWords (some own)⟩
        | none => ⟨d.onCell (fun c => c.modArm a (fun m => { m with stop := none })), .ok, []⟩

/-! ### READ_BAYS (R176) -/

/-- The number of a holder: FREE 0, A 1, B 2 (R157, R202). -/
def holderNumber : Option ArmId → Nat
  | none => 0
  | some a => armCode a

/-- A wait slot: occupied, tag, first, last and remaining time (R176). -/
def waitWords : Option WaitSlot → List Word
  | none => word 0 ++ word 0 ++ word 0 ++ word 0 ++ word 0
  | some w => word 1 ++ word w.tag ++ word w.first ++ word w.last ++ timerWord w.timer

/-- A stop latch with its cause and the level of its stop output (R176). -/
def Cell.stopWords (c : Cell) (a : ArmId) : List Word :=
  flagWord (c.arm a).stop.isSome ++ stopCauseWords (c.arm a).stop ++ flagWord (c.stopOutput a)

/-- READ_BAYS (R176). No list count stands before the holders: the bay count leads the body (log entry 31, DESIGN CHOICE). -/
def serveReadBays (d : Device) : Served :=
  let b := d.cell.bays
  ⟨d, .ok,
    word b.count ++ word2 b.origin ++ word2 b.width ++ b.holders.flatMap (fun h => word (holderNumber h)) ++
      waitWords d.cell.armA.wait ++ waitWords d.cell.armB.wait ++ d.cell.stopWords .armA ++ d.cell.stopWords .armB⟩

/-! ### The meanings -/

/-- BAY_CONFIG (R158). -/
def execBayConfig (count : Nat) (origin width : Int) (s : State) : Host.Outcome State Fault Refusal :=
  s.command 259 7 (serveBayConfig count origin width)

/-- STOP_RELEASE (R174). -/
def execStopRelease (arm : Nat) (s : State) : Host.Outcome State Fault Refusal := s.command 1031 3 (serveStopRelease arm)

/-- BAY_CLEAR (R168). -/
def execBayClear (arm : Nat) (s : State) : Host.Outcome State Fault Refusal := s.command 1034 3 (serveBayClear arm)

/-- READ_BAYS (R176). -/
def execReadBays (s : State) : Host.Outcome State Fault Refusal := s.command 1287 2 serveReadBays

/-- Expiry of the wait timer (R164). -/
def execWaitTimerExpiry (link : ArmId) (s : State) : Host.Outcome State Fault Refusal :=
  s.event (fun d => d.onCell (fun c => c.waitExpiry link))

end Sys2Proof.Machine
end

