-- ==== Sys2Proof/Machine/Changes.lean ====
section
/-! DEFINITION. The change sequencer (6.3): the steps of a change and their completion (R125 to R130, R132), the dispatch of
line changes (R115, R131), and the requests CHANGE_BEGIN, CHANGE_ABORT, REPORT_STAGED and REPORT_ID (R123, R124, R126, R127,
R129, R131, R133), the step and engage timers, and CHANGE_RESOLVE (R137). -/

namespace Sys2Proof.Machine

/-! ### Steps -/

/-- The first of the pick steps, or STAGE_OUT for a plan without a target (R125). -/
def Plan.pickOrOut (p : Plan) : Step := if p.target.isSome then .pickDock else .stageOut

/-- The next step that the change has, none after STAGE_OUT (R125). -/
def Plan.next (p : Plan) : Step → Option Step
  | .stageIn => some (if p.old.isSome then .dropDock else p.pickOrOut)
  | .dropDock => some .dropRelease
  | .dropRelease => some .dropDepart
  | .dropDepart => some p.pickOrOut
  | .pickDock => some .pickEngage
  | .pickEngage => some .pickDepart
  | .pickDepart => some .stageOut
  | .stageOut => none

/-- The entry action of a step (R125): the latch, and in PICK_ENGAGE the engage flag and timer (R129). -/
def Cell.entryAction (c : Cell) (a : ArmId) : Step → Cell
  | .dropRelease => c.setLatch a true
  | .dropDepart => c.setLatch a false
  | .pickEngage =>
    (c.setLatch a true).modSeq a
      (fun q => { q with engage := true, engageTimer := some (c.arm a).rack.params.engageTime })
  | _ => c

/-- A step is entered: entry time, step timer, entry action, CHANGE_STEP (R125). -/
def Cell.enterStep (c : Cell) (a : ArmId) (step : Step) (p : Plan) : Cell :=
  let c1 := c.setSeqState a (.cycle step { p with entry := c.ms })
  let c2 := c1.modSeq a (fun q => { q with stepTimer := some ((c.arm a).rack.params.stepLimits.get step.number 0) })
  let c3 := c2.entryAction a step
  c3.message a (.changeStep step (c3.arm a).seq.latch)

/-- The duration of a step at its completion, modulo 4,294,967,296 (R132). -/
def stepDuration (now entry : Count) : Nat := (now - entry).toNat

/-- The duration is slow against the learned duration of a ring (R132). -/
def slowAgainst (params : PortParams) (ring : List Nat) (duration : Nat) : Bool :=
  let n := 2 ^ params.learning
  decide (n ≤ ring.length) &&
    decide (roundedMean ((ring.take n).map Int.ofNat) * params.slowFactor < (duration : Int) * 16)

/-- A completed step's duration is judged and enters its ring, the ninth-newest leaving (R132). -/
def Cell.judgeStep (c : Cell) (a : ArmId) (step : Step) (p : Plan) : Cell :=
  let m := c.arm a
  let duration := stepDuration c.ms p.entry
  let ring := m.seq.rings.get step.number []
  let c1 := if slowAgainst m.rack.params ring duration then c.addNotice (.stepSlow a step) else c
  c1.modSeq a (fun q => { q with rings := q.rings.set step.number ((duration :: ring).take 8) })

/-- What the completion of a step sets: DROP_DEPART puts the old probe in the drop port and leaves the head empty (R128);
PICK_DEPART seats the target and keeps its port as its return place (R130). -/
def Cell.stepEffect (c : Cell) (a : ArmId) (step : Step) (p : Plan) : Cell :=
  match step, p.old, p.drop, p.target, p.pick with
  | .dropDepart, some old, some d, _, _ =>
    ((c.setPortState a (some d) (.holding old)).placeProbe old (.rack d)).modSeq a (fun q => { q with seated := .noProbe })
  | .pickDepart, _, _, some t, some k =>
    ((c.setPortState a (some k) (.vacant t)).placeProbe t .seated).modSeq a (fun q => { q with seated := .probe t })
  | _, _, _, _, _ => c

/-- A completed step before the next is entered: its duration is judged, its effect set, its progress cleared (R127, R130, R132). -/
def Cell.finishStep (c : Cell) (a : ArmId) (step : Step) (p : Plan) : Cell :=
  ((c.judgeStep a step p).stepEffect a step p).modSeq a
    (fun q => { q with dropOccupied := false, dropId := false, pickOccupied := false, pickHead := false })

/-- The end of a change at the completion of STAGE_OUT: IDLE, CHANGE_DONE, CHANGE_END (R126). -/
def Cell.endChange (c : Cell) (a : ArmId) : Cell :=
  let c1 := ((c.modSeq a Sequencer.quiet).setSeqState a .idle).addNotice (.changeDone a)
  c1.message a (.changeEnd (.completed (c1.arm a).seq.seated))

/-- The step in progress completes: it is finished, the next step is entered or the change ended (R125, R126), and after a change of the box used the bay test is made again (R172). -/
def Cell.completeStep (c : Cell) (a : ArmId) : Cell :=
  match (c.arm a).seq.state with
  | .idle => c
  | .changeFault _ _ _ => c
  | .cycle step p =>
    let c1 := c.finishStep a step p
    let c2 := match p.next step with
      | some st => c1.enterStep a st p
      | none => c1.endChange a
    if step = .dropDepart ∨ step = .pickDepart then c2.retest a else c2

/-! ### Line changes (R115, R131) -/

/-- A change taken on a plan port in CYCLE: the changes that the step awaits advance it, any other aborts the change with
cause SENSOR (R125, R127 to R131). -/
def Cell.planPortChange (c : Cell) (a : ArmId) (step : Step) (p : Plan) (k : Nat) (line : PortLine) (level : Bool) : Cell :=
  let q := (c.arm a).seq
  match step, line, level with
  | .dropDock, .head, true => if p.drop = some k then c.completeStep a else c.abort a .sensor
  | .dropRelease, .occupied, true =>
    if p.drop = some k ∧ q.dropOccupied = false then
      let c1 := c.modSeq a (fun q => { q with dropOccupied := true })
      if q.dropId then c1.completeStep a else c1
    else c.abort a .sensor
  | .dropDepart, .head, false => if p.drop = some k then c.completeStep a else c.abort a .sensor
  | .pickDock, .head, true => if p.pick = some k then c.completeStep a else c.abort a .sensor
  | .pickDepart, .occupied, false =>
    if p.pick = some k ∧ q.pickOccupied = false then
      let c1 := c.modSeq a (fun q => { q with pickOccupied := true })
      if q.pickHead then c1.completeStep a else c1
    else c.abort a .sensor
  | .pickDepart, .head, false =>
    if p.pick = some k ∧ q.pickHead = false then
      let c1 := c.modSeq a (fun q => { q with pickHead := true })
      if q.pickOccupied then c1.completeStep a else c1
    else c.abort a .sensor
  | _, _, _ => c.abort a .sensor

/-- A manual event on a line (R116, R117). -/
def Cell.manualChange (c : Cell) (a : ArmId) (k : Nat) (line : PortLine) (level : Bool) : Cell :=
  match line with
  | .occupied => c.manualOccupied a k level
  | .head => manualHead setStop c a k level

/-- A taken change is dispatched according to the port (R115). -/
def Cell.dispatchLine (c : Cell) (a : ArmId) (k : Nat) (line : PortLine) (level : Bool) : Cell :=
  match c.port? a k with
  | none => c
  | some port =>
    if port.state = .disabled then c
    else
      match (c.arm a).seq.state with
      | .idle => c.manualChange a k line level
      | .cycle step p => if p.names k then c.planPortChange a step p k line level else c.manualChange a k line level
      | .changeFault _ _ p =>
        if p.names k then
          match line with
          | .occupied => c
          | .head => manualHead setStop c a k level
        else c.manualChange a k line level

/-! ### Requests -/

/-- The port VACANT for a probe, by number (R124). -/
def portWith (st : PortState) (ports : List Port) : Option Nat :=
  (ports.findIdx? (fun p => p.state == st)).map (· + 1)

/-- The drop port of a change for a seated probe: its VACANT port, otherwise the lowest-numbered EMPTY port (R124). -/
def dropPort (ports : List Port) (old : Nat) : Option Nat := (portWith (.vacant old) ports).or (portWith .empty ports)

/-- The seated probe, if one is known. -/
def Seated.probe? : Seated → Option Nat
  | .probe p => some p
  | _ => none

/-- The box of CHANGE_BEGIN's step 12 is too large for the arm (R123). -/
def Cell.changeTooLarge (c : Cell) (a : ArmId) (t : Nat) : Bool :=
  (t != 0 && (c.envelopeFor a (.probe t)).emptyOnAxis) ||
    ((c.arm a).seq.seated.probe?.isSome && (c.envelopeFor a .noProbe).emptyOnAxis)

/-- The status with which CHANGE_BEGIN is refused, none if it is accepted (R123). -/
def Cell.changeRefusal (c : Cell) (a : ArmId) (t : Nat) : Option Status :=
  let m := c.arm a
  if !c.running a then some .badState
  else if 40 < t then some .badArg
  else if m.stop.isSome then some .stopped
  else match m.seq.state with
    | .changeFault _ _ _ => some .faulted
    | .cycle _ _ => some .busy
    | .idle =>
      if m.seq.seated = .unknown then some .unknownProbe
      else if t = 0 ∧ m.seq.seated = .noProbe then some .nothingToDo
      else if m.seq.seated = .probe t then some .alreadySeated
      else if t ≠ 0 ∧ ((c.probe t).state = .free ∨ (c.probe t).home ≠ a) then some .notFound
      else if t ≠ 0 ∧ (c.probe t).state = .retiring then some .retiring
      else if t ≠ 0 ∧ portWith (.holding t) m.rack.ports = none then some .notInRack
      else if c.changeTooLarge a t then some .tooLarge
      else match m.seq.seated.probe? with
        | none => none
        | some old => if dropPort m.rack.ports old = none then some .noPort else none

/-- The plan of an accepted CHANGE_BEGIN (R124). -/
def Cell.changePlan (c : Cell) (a : ArmId) (t : Nat) : Plan :=
  let m := c.arm a
  let old := m.seq.seated.probe?
  { old := old
    target := if t = 0 then none else some t
    drop := old.bind (dropPort m.rack.ports)
    pick := if t = 0 then none else portWith (.holding t) m.rack.ports
    entry := c.ms }

/-- Service of CHANGE_BEGIN: checks, the response ACCEPTED with the plan ports, STAGE_IN entered (R123, R124). -/
def serveChangeBegin (a : ArmId) (tag t : Nat) (c : Cell) : Cell :=
  match c.changeRefusal a t with
  | some st => c.respond a .changeBegin tag st 0 0
  | none =>
    let p := c.changePlan a t
    (c.respond a .changeBegin tag .accepted (p.drop.getD 0) (p.pick.getD 0)).enterStep a .stageIn p

/-- Service of CHANGE_ABORT from the arm link (R133). -/
def serveChangeAbort (a : ArmId) (tag : Nat) (c : Cell) : Cell :=
  if c.running a && (c.arm a).seq.state.inCycle then (c.respond a .changeAbort tag .ok 0 0).abort a .armAbort
  else c.respond a .changeAbort tag .badState 0 0

/-- Service of REPORT_STAGED (R126, R131). -/
def serveReportStaged (a : ArmId) (tag : Nat) (c : Cell) : Cell :=
  if !c.running a then c.respond a .reportStaged tag .badState 0 0
  else match (c.arm a).seq.state with
    | .cycle .stageIn _ => (c.respond a .reportStaged tag .ok 0 0).completeStep a
    | .cycle .stageOut _ => (c.respond a .reportStaged tag .ok 0 0).completeStep a
    | _ => c.respond a .reportStaged tag .ignored 0 0

/-- Service of REPORT_ID (R127, R129, R131). -/
def serveReportId (a : ArmId) (tag code : Nat) (c : Cell) : Cell :=
  if !c.running a then c.respond a .reportId tag .badState 0 0
  else match (c.arm a).seq.state with
    | .cycle .dropRelease _ =>
      if code = 0 then
        let c1 := (c.respond a .reportId tag .ok 0 0).modSeq a (fun q => { q with dropId := true })
        if (c.arm a).seq.dropOccupied then c1.completeStep a else c1
      else c.respond a .reportId tag .ignored 0 0
    | .cycle .pickEngage p =>
      if (c.arm a).seq.engage ∨ code = 0 then c.respond a .reportId tag .ignored 0 0
      else if code = (c.probe (p.target.getD 0)).code then (c.respond a .reportId tag .ok 0 0).completeStep a
      else (c.respond a .reportId tag .ok 0 0).abort a .idMismatch
    | _ => c.respond a .reportId tag .ignored 0 0

/-! ### Timers -/

/-- Expiry of the step timer: the change is aborted with cause STEP_TIMEOUT (R125, R133). -/
def Cell.stepTimerExpiry (c : Cell) (a : ArmId) : Cell :=
  if (c.arm a).seq.stepTimer.isSome then (c.modSeq a (fun q => { q with stepTimer := none })).abort a .stepTimeout else c

/-- Expiry of the engage timer: the latch is deasserted, which starts a mask, the engage flag is cleared, CHANGE_STEP is sent
(R129). -/
def Cell.engageTimerExpiry (c : Cell) (a : ArmId) : Cell :=
  if (c.arm a).seq.engageTimer.isSome then
    ((c.modSeq a (fun q => { q with engageTimer := none, engage := false })).setLatch a false).message a
      (.changeStep .pickEngage false)
  else c

/-! ### CHANGE_RESOLVE (R137) -/

/-- An entry that names a probe names the plan's old probe or its target (R137, step 3). -/
def Plan.allows (p : Plan) (n : Nat) : Bool := n == 0 || p.old == some n || p.target == some n

/-- The entries name a probe twice (R137, step 3). -/
def namedTwice (seated drop pick : Nat) : Bool :=
  (seated != 0 && (seated == drop || seated == pick)) || (drop != 0 && drop == pick)

/-- A port entry disagrees with the taken OCCUPIED level of a port that the plan names (R137, step 4). -/
def Cell.entryDisagrees (c : Cell) (a : ArmId) (port : Option Nat) (entry : Nat) : Bool :=
  match port.bind (c.port? a) with
  | none => false
  | some p => p.occupied != (entry != 0)

/-- The seated field that an entry s names: 0 is NONE (R137). -/
def resolvedSeat (s : Nat) : Seated := if s = 0 then .noProbe else .probe s

/-- The status with which CHANGE_RESOLVE is refused after its arm is known, none if it is accepted (R137). -/
def Cell.resolveRefusal (c : Cell) (a : ArmId) (seated drop pick : Nat) : Option Status :=
  if 40 < seated ∨ 40 < drop ∨ 40 < pick then some .badArg
  else match (c.arm a).seq.state with
    | .changeFault _ _ p =>
      if c.mode a = .starting then some .badState
      else if (drop ≠ 0 ∧ p.drop = none) ∨ (pick ≠ 0 ∧ p.pick = none) ∨ !p.allows seated ∨ !p.allows drop ∨ !p.allows pick
          ∨ namedTwice seated drop pick then some .badArg
      else if c.entryDisagrees a p.drop drop || c.entryDisagrees a p.pick pick then some .disagrees
      else if c.running a && (c.envelopeFor a (resolvedSeat seated)).emptyOnAxis then some .tooLarge
      else none
    | _ => some .badState

/-- A plan port takes the probe that its entry names, or becomes VACANT for the probe seated from it, or EMPTY (R137). -/
def Cell.resolvePort (c : Cell) (a : ArmId) (port : Option Nat) (entry seated : Nat) (from? : Option Nat) : Cell :=
  match port with
  | none => c
  | some k =>
    if entry ≠ 0 then (c.setPortState a (some k) (.holding entry)).placeProbe entry (.rack k)
    else if seated ≠ 0 ∧ from? = some seated then c.setPortState a (some k) (.vacant seated)
    else c.setPortState a (some k) .empty

/-- A plan probe named nowhere goes OUT, or becomes FREE if RETIRING (R137). -/
def Cell.resolveUnnamed (c : Cell) (p : Option Nat) (seated drop pick : Nat) : Cell :=
  match p with
  | none => c
  | some n => if n = seated ∨ n = drop ∨ n = pick then c else c.probeOut n

/-- The records of an accepted CHANGE_RESOLVE; then the re-test of R172 (R137). -/
def Cell.resolveChange (c : Cell) (a : ArmId) (p : Plan) (seated drop pick : Nat) : Cell :=
  let c := (c.resolvePort a p.drop drop seated p.old).resolvePort a p.pick pick seated p.target
  let c := c.modSeq a (fun q => { q with seated := resolvedSeat seated })
  let c := if seated = 0 then c else c.placeProbe seated .seated
  let c := (c.resolveUnnamed p.old seated drop pick).resolveUnnamed p.target seated drop pick
  let c := (c.setLatch a false).setSeqState a .idle
  c.retest a

end Sys2Proof.Machine
end

