-- ==== Sys2Proof/Machine/Maps.lean ====
section
/-! DEFINITION. The map store: MAP_OPEN (R35, R36), MAP_NODES (R37, R38), MAP_CLOSE (R39), MAP_CLEAR (R40), READ_MAP
(R41, R42), and the tag that a map presents at bring-up (R44). -/

namespace Sys2Proof.Machine

/-- A node entry not yet written: four zeros, its mark clear (R36, R42). -/
def MapEntry.blank : MapEntry := ⟨⟨0, 0, 0, 0⟩, false⟩

/-- The number of indices in the written set (R38). -/
def MapRecord.written (m : MapRecord) : Nat := (m.nodes.filter (fun e => e.written)).length

/-- The number of indices not yet written (R39). -/
def MapRecord.unwritten (m : MapRecord) : Nat := (m.nodes.filter (fun e => !e.written)).length

/-- The lowest index not yet written (R39). -/
def MapRecord.lowestUnwritten (m : MapRecord) : Nat := (m.nodes.findIdx? (fun e => !e.written)).getD 0

/-- The tag that a map presents at bring-up: a READY map its tag, any other 0 (R44). -/
def MapRecord.presented (m : MapRecord) : Nat := if m.state = .ready then m.tag else 0

/-- The tags that the maps of an arm present, in the order X, Y, Z (R44). -/
def ArmMaps.presented (m : ArmMaps) : Tags := ⟨m.x.presented, m.y.presented, m.z.presented⟩

/-- One map of an arm is LOADING (R43). -/
def ArmMaps.anyLoading (m : ArmMaps) : Bool := m.x.state == .loading || m.y.state == .loading || m.z.state == .loading

/-- The arm and axis that two codes name (R202). -/
def armAxis (arm axis : Nat) : Option (ArmId × Axis) :=
  match armOfCode arm, axisOfCode axis with
  | some a, some k => some (a, k)
  | _, _ => none

/-- A map of an arm. -/
def Device.map (d : Device) (a : ArmId) (k : Axis) : MapRecord := (d.cell.arm a).maps.get k

/-- A map of an arm replaced. -/
def Device.setMap (d : Device) (a : ArmId) (k : Axis) (m : MapRecord) : Device :=
  d.onCell (fun c => c.modArm a (fun x => { x with maps := x.maps.set k m }))

/-- The entries written to consecutive indices from `first` (R38). -/
def writeNodes (nodes : List MapEntry) (first : Nat) : List MapNode → List MapEntry
  | [] => nodes
  | e :: es => writeNodes (nodes.set first ⟨e, true⟩) (first + 1) es

/-- The spacing of MAP_OPEN as step 4 of R35 leaves it. -/
def clampedSpacing (spacing : Int) : Int := clampInt 1000 2000000 spacing

/-- MAP_OPEN (R35, R36). -/
def serveMapOpen (arm axis tag : Nat) (origin spacing : Int) (count : Nat) (d : Device) : Served :=
  match armAxis arm axis with
  | none => .refuse d .badArg
  | some (a, k) =>
    if !d.cell.isOff a then .refuse d .badState
    else if count < 2 ∨ 64 < count then .refuse d .badArg
    else if Config.positionHigh < origin + (count - 1 : Int) * clampedSpacing spacing then .refuse d .badArg
    else
      ⟨d.setMap a k ⟨.loading, tag, origin, clampedSpacing spacing, List.replicate count MapEntry.blank⟩,
       clampStatus (clampedSpacing spacing != spacing),
       word2 tag ++ word2 origin ++ word2 (clampedSpacing spacing) ++ word count⟩

/-- MAP_NODES (R37, R38). -/
def serveMapNodes (arm axis first : Nat) (entries : List MapNode) (d : Device) : Served :=
  match armAxis arm axis with
  | none => .refuse d .badArg
  | some (a, k) =>
    let m := d.map a k
    if !d.cell.isOff a then .refuse d .badState
    else if m.state ≠ .loading then .refuse d .badState
    else if entries.length < 1 ∨ 8 < entries.length ∨ 63 < first then .refuse d .badArg
    else if m.nodes.length < first + entries.length then .refuse d .badArg
    else
      let m' := { m with nodes := writeNodes m.nodes first entries }
      ⟨d.setMap a k m', .ok, word m'.written⟩

/-- MAP_CLOSE (R39). -/
def serveMapClose (arm axis : Nat) (d : Device) : Served :=
  match armAxis arm axis with
  | none => .refuse d .badArg
  | some (a, k) =>
    let m := d.map a k
    if !d.cell.isOff a then .refuse d .badState
    else if m.state ≠ .loading then .refuse d .badState
    else if m.unwritten ≠ 0 then ⟨d, .incomplete, word m.unwritten ++ word m.lowestUnwritten⟩
    else ⟨d.setMap a k { m with state := .ready }, .ok, word2 m.tag⟩

/-- MAP_CLEAR (R40). -/
def serveMapClear (arm axis : Nat) (d : Device) : Served :=
  match armAxis arm axis with
  | none => .refuse d .badArg
  | some (a, k) =>
    if !d.cell.isOff a then .refuse d .badState
    else ⟨d.setMap a k MapRecord.reset, .ok, []⟩

/-- The number of a map state (R202). -/
def MapState.number : MapState → Nat
  | .empty => 0
  | .loading => 1
  | .ready => 2

/-- A map's header as READ_MAP carries it (R41). -/
def mapHeaderWords (m : MapRecord) : List Word :=
  word m.state.number ++ word2 m.tag ++ word2 m.origin ++ word2 m.spacing ++ word m.nodes.length ++ word m.written

/-- A node entry with its written mark (R42). -/
def mapEntryWords (e : MapEntry) : List Word :=
  word e.node.ep ++ word e.node.es1 ++ word e.node.es2 ++ word e.node.ang ++ flagWord e.written

/-- READ_MAP (R41, R42). No list count stands before the node entries: the count is the one that the command carries (log entry 31,
DESIGN CHOICE). -/
def serveReadMap (arm axis first count : Nat) (d : Device) : Served :=
  match armAxis arm axis with
  | none => .refuse d .badArg
  | some (a, k) =>
    let m := d.map a k
    if 8 < count ∨ 63 < first ∨ (1 ≤ count ∧ m.nodes.length < first + count) then .refuse d .badArg
    else ⟨d, .ok, mapHeaderWords m ++ ((m.nodes.drop first).take count).flatMap mapEntryWords⟩

/-! ### The meanings -/

/-- MAP_OPEN (R35, R36). -/
def execMapOpen (arm axis tag : Nat) (origin spacing : Int) (count : Nat) (s : State) : Host.Outcome State Fault Refusal :=
  s.command 513 11 (serveMapOpen arm axis tag origin spacing count)

/-- MAP_NODES (R37, R38): 6 words and 4 for each entry. -/
def execMapNodes (arm axis first : Nat) (entries : List MapNode) (s : State) : Host.Outcome State Fault Refusal :=
  s.command 514 (6 + 4 * entries.length) (serveMapNodes arm axis first entries)

/-- MAP_CLOSE (R39). -/
def execMapClose (arm axis : Nat) (s : State) : Host.Outcome State Fault Refusal :=
  s.command 515 4 (serveMapClose arm axis)

/-- MAP_CLEAR (R40). -/
def execMapClear (arm axis : Nat) (s : State) : Host.Outcome State Fault Refusal :=
  s.command 516 4 (serveMapClear arm axis)

/-- READ_MAP (R41, R42). -/
def execReadMap (arm axis first count : Nat) (s : State) : Host.Outcome State Fault Refusal :=
  s.command 1289 6 (serveReadMap arm axis first count)

end Sys2Proof.Machine
end

