-- ==== Sys2Proof/Machine/Temperature.lean ====
section
/-! DEFINITION. The temperature unit: the judging of deliveries (R73 to R75), the stale and hold timers (R76, R84), the
evaluation of the groups (R81 to R83), the group-updated signal with the drift evaluation it brings (R85, R103, R104), and the
commands CHANNEL_SET, CHANNEL_REMOVE, CHANNEL_CLEAR, GROUP_SET, TEMP_SET, READ_CHANNEL and READ_GROUP. -/

namespace Sys2Proof.Machine

/-! ### Access -/

def Device.channel (d : Device) (k : Nat) : Channel := d.temp.channels.get k Channel.reset

def Device.setChannel (d : Device) (k : Nat) (c : Channel) : Device :=
  { d with temp := { d.temp with channels := d.temp.channels.set k c } }

def Device.group (d : Device) (g : Nat) : Group := d.temp.groups.get g Group.reset

def Device.setGroup (d : Device) (g : Nat) (x : Group) : Device :=
  { d with temp := { d.temp with groups := d.temp.groups.set g x } }

/-- A block adds a cause to the notice set (R197). -/
def Device.addNotice (d : Device) (n : Notice) : Device := d.onCell (fun c => c.addNotice n)

/-- Several causes that the spec does not order are added in a free order (R197, log entry 3). -/
def Device.addNotices (d : Device) (l : List Notice) : Device :=
  match l with
  | [] => d
  | [n] => d.addNotice n
  | l => ((freeOrder d.freeCount l).foldl Device.addNotice d).countFree

/-! ### Readings (R68, R73 to R75) -/

/-- The effective step limit (R68). -/
def Channel.effectiveStep (c : Channel) : Int := if c.fine then c.stepLimit / 2 else c.stepLimit

/-- The effective stale time (R68). -/
def Channel.effectiveStale (c : Channel) : Nat := if c.longStale then 2 * c.staleTime else c.staleTime

/-- A delivered entry is rejected: a fault marker, a reading out of range, or a step beyond the limit (R73). -/
def Channel.rejected (c : Channel) (entry : Int) : Bool :=
  entry == Config.faultMarker || decide (entry < Config.readingLow) || decide (Config.readingHigh < entry) ||
    match c.lastAccepted with
    | none => false
    | some last => decide (c.effectiveStep < ((entry - last).natAbs : Int))

/-- An accepted reading (R75). -/
def Channel.accept (c : Channel) (entry : Int) : Channel :=
  let w := (entry :: c.window).take c.windowSize
  { c with
    window := w
    filtered := some (roundedMean w)
    lastAccepted := some entry
    rejects := 0
    staleTimer := some c.effectiveStale
    state := .active }

/-- A rejection, and the fault at the reject limit (R74). -/
def Channel.reject (c : Channel) : Channel :=
  let n := c.rejects + 1
  if n < c.rejectLimit then { c with rejects := n }
  else { c with rejects := n, state := .faulted, window := [], staleTimer := none }

/-- A delivery to channel `k` (R73): discarded in UNUSED and FAULTED, judged in WAITING, ACTIVE and STALE. -/
def Device.deliverTo (d : Device) (k : Nat) (entry : Int) : Device :=
  let c := d.channel k
  match c.state with
  | .unused => d
  | .faulted => d
  | _ =>
    if c.rejected entry then
      let d1 := d.setChannel k c.reject
      if c.reject.state = .faulted then d1.addNotice (.channelFault k) else d1
    else d.setChannel k (c.accept entry)

/-- The channel that names a node number and channel index (R60, R73). -/
def Device.channelNamed (d : Device) (node index : Nat) : Option Nat :=
  (d.temp.channels.numbered.find? (fun x => x.2.state != .unused && x.2.node == node && x.2.index == index)).map Prod.fst

/-- A delivery for a node number and channel index; one that no channel names is discarded (R60, R73). -/
def Device.deliver (d : Device) (node index : Nat) (entry : Int) : Device :=
  match d.channelNamed node index with
  | none => d
  | some k => d.deliverTo k entry

/-! ### Drift (R103, R104) -/

/-- The state of a tip after an evaluation against a group (R104). -/
def Tip.evaluated (t : Tip) (g : Group) (window : Int) : TipState :=
  match t.state with
  | .qualified | .drifted =>
    match g.state, g.value, t.tq with
    | .lost, _, _ => .drifted
    | .valid, some v, some q => if window < ((v - q).natAbs : Int) then .drifted else .qualified
    | .held, some v, some q => if window < ((v - q).natAbs : Int) then .drifted else .qualified
    | _, _, _ => t.state
  | s => s

/-- A tip after an evaluation. -/
def Tip.evaluate (g : Group) (window : Int) (t : Tip) : Tip := { t with state := t.evaluated g window }

/-- The tips of a probe that an evaluation makes DRIFTED, by number (R104). -/
def Probe.drifting (p : Probe) (g : Group) (window : Int) : List Nat :=
  (p.tips.zipIdx.filter (fun x => x.1.state == .qualified && x.1.evaluated g window == .drifted)).map (fun x => x.2 + 1)

/-- The probe is evaluated: not FREE and homed on the arm (R103). -/
def Probe.followed (p : Probe) (a : ArmId) : Bool := p.state != .free && p.home == a

/-- The TIP_DRIFTED notices of an evaluation of the probes homed on an arm (R104). -/
def Device.driftNotices (d : Device) (a : ArmId) (g : Group) : List Notice :=
  d.cell.probes.numbered.flatMap (fun x =>
    if x.2.followed a then (x.2.drifting g d.temp.driftWindow).map (fun t => Notice.tipDrifted x.1 t) else [])

/-- The probes after an evaluation of those homed on an arm (R103, R104). -/
def Device.driftProbes (d : Device) (a : ArmId) (g : Group) : Table Probe 40 :=
  d.cell.probes.map (fun p =>
    if p.followed a then { p with tips := p.tips.map (Tip.evaluate g d.temp.driftWindow) } else p)

/-- The drift evaluation of the probes homed on an arm, without its notices. -/
def Device.evaluateDrift (d : Device) (a : ArmId) (g : Group) : Device :=
  d.onCell (fun c => { c with probes := d.driftProbes a g })

/-- The probe-environment group of an arm (R87). -/
def Device.envGroup (d : Device) (a : ArmId) : Nat := (d.cell.arm a).groups.env

/-- The group-updated signal for the groups of a list, as it concerns an arm (R85, R103). -/
def Device.signalArm (d : Device) (gs : List Nat) (a : ArmId) : Device :=
  if gs.contains (d.envGroup a) then d.evaluateDrift a (d.group (d.envGroup a)) else d

/-- The TIP_DRIFTED notices that the signal brings for an arm (R103, R104). -/
def Device.signalNotices (d : Device) (gs : List Nat) (a : ArmId) : List Notice :=
  if gs.contains (d.envGroup a) then d.driftNotices a (d.group (d.envGroup a)) else []

/-- The group-updated signal for the groups of a list (R85, R103): a probe has one home arm, so the two arms' evaluations touch
different probes, and the order of their TIP_DRIFTED notices is free (log entry 3). -/
def Device.signal (d : Device) (gs : List Nat) : Device :=
  ((d.signalArm gs .armA).signalArm gs .armB).addNotices (d.signalNotices gs .armA ++ d.signalNotices gs .armB)

/-! ### Evaluation (R81 to R83) -/

/-- The members of a group: the channels, in any state but UNUSED, whose group field names it (R79). -/
def Device.members (d : Device) (g : Nat) : List Channel :=
  d.temp.channels.val.filter (fun c => c.state != .unused && c.group == g)

/-- A usable member is an ACTIVE one (R79). -/
def Channel.counts (c : Channel) : Bool := c.state == .active

/-- The filtered values of the usable members of a list of members (R79, R82). -/
def usableValues (l : List Channel) : List Int := (l.filter Channel.counts).filterMap (fun c => c.filtered)

/-- The largest minus the smallest of a list (R82). -/
def spreadOf : List Int → Int
  | [] => 0
  | x :: xs => xs.foldl max x - xs.foldl min x

/-- A group after an evaluation, from its members (R82, R83). -/
def Group.evaluated (x : Group) (members : List Channel) : Group :=
  let values := usableValues members
  let x := { x with members := members.length, usable := (members.filter Channel.counts).length }
  if values ≠ [] then
    { x with
      state := .valid
      value := some (roundedMean values)
      spread := x.spreadLimit != 0 && decide (x.spreadLimit < spreadOf values)
      holdTimer := none }
  else if members = [] then { x with state := .empty, value := none, spread := false, holdTimer := none }
  else
    match x.state with
    | .empty => x
    | .valid =>
      if x.holdTime = 0 then { x with state := .lost } else { x with state := .held, holdTimer := some x.holdTime }
    | .held => x
    | .lost => x

/-- The twelve group numbers. -/
def groupNumbers : List Nat := [1, 2, 3, 4, 5, 6, 7, 8, 9, 10, 11, 12]

/-- The GROUP_LOST notices of an evaluation: the groups that it makes LOST (R83). -/
def Device.lostNotices (d : Device) : List Notice :=
  d.temp.groups.numbered.filterMap (fun x =>
    if x.2.state = .valid ∧ (x.2.evaluated (d.members x.1)).state = .lost then some (Notice.groupLost x.1) else none)

/-- The evaluation of all twelve groups, without its signal (R81). -/
def Device.evaluateGroups (d : Device) : Device :=
  ({ d with temp := { d.temp with groups := d.temp.groups.mapNumbered (fun g (x : Group) => x.evaluated (d.members g)) } }).addNotices
    d.lostNotices

/-- The evaluation of all twelve groups and the group-updated signal for all of them (R81, R85). -/
def Device.evaluate (d : Device) : Device := d.evaluateGroups.signal groupNumbers

/-! ### Timers -/

/-- Expiry of a channel's stale timer: an ACTIVE channel becomes STALE (R76). -/
def Device.staleExpiry (k : Nat) (d : Device) : Device :=
  let c := d.channel k
  if c.staleTimer.isSome then
    d.setChannel k { c with staleTimer := none, state := if c.state = .active then .stale else c.state }
  else d

/-- Expiry of a group's hold timer: a HELD group becomes LOST, with GROUP_LOST and the signal for that group alone (R84). -/
def Device.holdExpiry (g : Nat) (d : Device) : Device :=
  let x := d.group g
  if x.holdTimer.isSome then
    let d1 := d.setGroup g { x with holdTimer := none }
    if x.state = .held then
      ((d.setGroup g { x with holdTimer := none, state := .lost }).addNotice (.groupLost g)).signal [g]
    else d1
  else d

/-! ### Commands -/

/-- The window sizes of R68. -/
def windowSizeOk (n : Nat) : Bool := n == 1 || n == 2 || n == 4 || n == 8

/-- Another configured channel names the same node and index (R70, step 4). -/
def Device.channelTaken (d : Device) (k node index : Nat) : Bool :=
  d.temp.channels.numbered.any (fun x => x.1 != k && x.2.state != .unused && x.2.node == node && x.2.index == index)

/-- The configuration of a channel as READ_CHANNEL and CHANNEL_SET carry it (R70, R72). -/
def channelConfigWords (c : Channel) : List Word :=
  word c.node ++ word c.index ++ word c.group ++ word c.windowSize ++ word c.stepLimit ++ flagWord c.fine ++
    flagWord c.longStale ++ word c.rejectLimit ++ word c.staleTime

/-- The record that an accepted CHANNEL_SET leaves, with its values clamped (R70). -/
def newChannel (node index group window : Nat) (stepLimit : Int) (fine longStale : Bool) (rejectLimit staleTime : Nat) : Channel where
  node := node
  index := index
  group := group
  windowSize := window
  stepLimit := clampInt 10 5000 stepLimit
  fine := fine
  longStale := longStale
  rejectLimit := clampNat 1 15 rejectLimit
  staleTime := clampNat 1000 60000 staleTime
  state := .waiting
  window := []
  filtered := none
  rejects := 0
  lastAccepted := none
  staleTimer := none

/-- A record number 1..n. -/
def numberOk (n k : Nat) : Bool := decide (1 ≤ k) && decide (k ≤ n)

/-- CHANNEL_SET (R70). A fine range or long stale code other than 0 or 1 is BAD_ARG by R202, but R70's list of checks does not name these
fields: that they are tested with its check 1, before NOT_FOUND and DUPLICATE, is the model's choice (log entry 34, DESIGN CHOICE). -/
def serveChannelSet (channel node index group window : Nat) (stepLimit : Int) (fine longStale rejectLimit staleTime : Nat)
    (d : Device) : Served :=
  match switchOfCode fine, switchOfCode longStale with
  | some f, some l =>
    if !numberOk 32 channel || !numberOk 16 node || !numberOk 4 index || decide (12 < group) || !windowSizeOk window then
      .refuse d .badArg
    else if (d.bus.nodes.get node Node.reset).state = .unused then .refuse d .notFound
    else if (d.bus.nodes.get node Node.reset).channels < index then .refuse d .badArg
    else if d.channelTaken channel node index then .refuse d .duplicate
    else
      let c := newChannel node index group window stepLimit f l rejectLimit staleTime
      ⟨(d.setChannel channel c).evaluate,
       clampStatus (c.stepLimit != stepLimit || c.rejectLimit != rejectLimit || c.staleTime != staleTime),
       channelConfigWords c⟩
  | _, _ => .refuse d .badArg

/-- CHANNEL_REMOVE (R71). -/
def serveChannelRemove (channel : Nat) (d : Device) : Served :=
  if !numberOk 32 channel then .refuse d .badArg
  else if (d.channel channel).state = .unused then .refuse d .notFound
  else ⟨(d.setChannel channel Channel.reset).evaluate, .ok, []⟩

/-- CHANNEL_CLEAR (R77). -/
def serveChannelClear (channel : Nat) (d : Device) : Served :=
  if !numberOk 32 channel then .refuse d .badArg
  else
    let c := d.channel channel
    if c.state ≠ .faulted then .refuse d .notFaulted
    else
      ⟨(d.setChannel channel
          { c with state := .waiting, window := [], filtered := none, lastAccepted := none, rejects := 0 }).evaluate, .ok, []⟩

/-- GROUP_SET (R80). -/
def serveGroupSet (group hold : Nat) (spread : Int) (d : Device) : Served :=
  if !numberOk 12 group then .refuse d .badArg
  else
    let h := clampNat 0 600000 hold
    let l := clampInt 0 10000 spread
    ⟨d.setGroup group { d.group group with holdTime := h, spreadLimit := l }, clampStatus (h != hold || l != spread), []⟩

/-- Every group number of an arm's assignments lies within 0..12 (R87). -/
def groupsOk (g : ArmGroups) : Bool := decide (g.x ≤ 12) && decide (g.y ≤ 12) && decide (g.z ≤ 12) && decide (g.env ≤ 12)

/-- TEMP_SET (R87). -/
def serveTempSet (drift : Int) (groupsA groupsB : ArmGroups) (d : Device) : Served :=
  if !groupsOk groupsA || !groupsOk groupsB then .refuse d .badArg
  else if !d.cell.isOff .armA || !d.cell.isOff .armB then .refuse d .badState
  else
    let w := clampInt 100 5000 drift
    ⟨{ d.onCell (fun c => (c.modArm .armA (fun m => { m with groups := groupsA })).modArm .armB
          (fun m => { m with groups := groupsB })) with temp := { d.temp with driftWindow := w } },
     clampStatus (w != drift), []⟩

/-- The number of a channel state (R202). -/
def ChannelState.number : ChannelState → Nat
  | .unused => 0 | .waiting => 1 | .active => 2 | .stale => 3 | .faulted => 4

/-- The number of a group state (R202). -/
def GroupState.number : GroupState → Nat
  | .empty => 0 | .valid => 1 | .held => 2 | .lost => 3

/-- READ_CHANNEL (R72). -/
def serveReadChannel (channel : Nat) (d : Device) : Served :=
  if !numberOk 32 channel then .refuse d .badArg
  else
    let c := d.channel channel
    ⟨d, .ok,
      channelConfigWords c ++ word c.state.number ++ word c.window.length ++ c.window.flatMap (fun v => word2 v) ++
        optionWords c.filtered ++ word c.rejects ++ optionWords c.lastAccepted ++ timerWord2 c.staleTimer⟩

/-- The four groups of an arm (R87). -/
def armGroupsWords (g : ArmGroups) : List Word := word g.x ++ word g.y ++ word g.z ++ word g.env

/-- READ_GROUP (R86). -/
def serveReadGroup (group : Nat) (d : Device) : Served :=
  if 12 < group then .refuse d .badArg
  else if group = 0 then
    ⟨d, .ok, word d.temp.driftWindow ++ armGroupsWords d.cell.armA.groups ++ armGroupsWords d.cell.armB.groups ++
      word d.workpiece.group⟩
  else
    let x := d.group group
    ⟨d, .ok,
      word x.state.number ++ optionWords x.value ++ word2 x.holdTime ++ word x.spreadLimit ++ flagWord x.spread ++
        timerWord2 x.holdTimer ++ word x.members ++ word x.usable⟩

/-! ### The meanings -/

/-- CHANNEL_SET (R70). -/
def execChannelSet (channel node index group window : Nat) (stepLimit : Int) (fine longStale rejectLimit staleTime : Nat)
    (s : State) : Host.Outcome State Fault Refusal :=
  s.command 264 12 (serveChannelSet channel node index group window stepLimit fine longStale rejectLimit staleTime)

/-- CHANNEL_REMOVE (R71). -/
def execChannelRemove (channel : Nat) (s : State) : Host.Outcome State Fault Refusal :=
  s.command 265 3 (serveChannelRemove channel)

/-- GROUP_SET (R80). -/
def execGroupSet (group hold : Nat) (spread : Int) (s : State) : Host.Outcome State Fault Refusal :=
  s.command 266 6 (serveGroupSet group hold spread)

/-- TEMP_SET (R87). -/
def execTempSet (drift : Int) (groupsA groupsB : ArmGroups) (s : State) : Host.Outcome State Fault Refusal :=
  s.command 267 11 (serveTempSet drift groupsA groupsB)

/-- CHANNEL_CLEAR (R77). -/
def execChannelClear (channel : Nat) (s : State) : Host.Outcome State Fault Refusal :=
  s.command 1030 3 (serveChannelClear channel)

/-- READ_CHANNEL (R72). -/
def execReadChannel (channel : Nat) (s : State) : Host.Outcome State Fault Refusal :=
  s.command 1285 3 (serveReadChannel channel)

/-- READ_GROUP (R86). -/
def execReadGroup (group : Nat) (s : State) : Host.Outcome State Fault Refusal :=
  s.command 1286 3 (serveReadGroup group)

/-- Expiry of a channel's stale timer (R76). -/
def execStaleTimerExpiry (channel : Nat) (s : State) : Host.Outcome State Fault Refusal :=
  s.event (Device.staleExpiry channel)

/-- Expiry of a group's hold timer (R84). -/
def execHoldTimerExpiry (group : Nat) (s : State) : Host.Outcome State Fault Refusal :=
  s.event (Device.holdExpiry group)

end Sys2Proof.Machine
end

