-- ==== Sys2Proof/Machine/Flags.lean ====
section
/-! DEFINITION. The six stages of the position correction and the flags they decide (R8 to R24): map components (R14 to R16),
the geometric term (R17), the Abbe term (R18), the scale thermal term (R19), the tip position (R20), the workpiece term and
the corrected coordinates (R21). Nothing here changes a record. -/

namespace Sys2Proof.Machine

/-! ### Flags (R22, R204) -/

/-- No flag: the flag set of a refused CORRECT (R7). -/
def Flags.none : Flags := ⟨false, false, false, false, false, false, false, false, false, false, false⟩

/-- The flag set in its two bytes: bit 0 MAP_ABSENT to bit 10 SATURATED (R204). -/
def Flags.bits (f : Flags) : Nat :=
  flagCode f.mapAbsent + 2 * flagCode f.mapMismatch + 4 * flagCode f.outsideX + 8 * flagCode f.outsideY +
    16 * flagCode f.outsideZ + 32 * flagCode f.thermalHeld + 64 * flagCode f.thermalLost + 128 * flagCode f.thermalAbsent +
    256 * flagCode f.spread + 512 * flagCode f.tipNotQualified + 1024 * flagCode f.saturated

/-! ### Stage 1: map components (R14 to R16) -/

/-- What a map gives a sample: its four components, whether it is absent, whether the sample lies outside it. -/
structure MapUse where
  comp : MapNode
  absent : Bool
  outside : Bool
deriving DecidableEq, Repr

/-- The components of node `i` of a node table (zero where no such node exists: a READY map has it, log entry 17). -/
def MapRecord.nodeAt (m : MapRecord) (i : Nat) : MapNode := ((m.nodes[i]?).map (fun e => e.node)).getD ⟨0, 0, 0, 0⟩

/-- Linear interpolation of one component between two nodes, the quotient alone being rounded (R16). -/
def interpolate (e0 e1 f s : Int) : Int := e0 + roundDiv ((e1 - e0) * f) s

/-- The four components interpolated separately (R16). -/
def nodeBetween (a b : MapNode) (f s : Int) : MapNode :=
  ⟨interpolate a.ep b.ep f s, interpolate a.es1 b.es1 f s, interpolate a.es2 b.es2 f s, interpolate a.ang b.ang f s⟩

/-- The position of the last node against the origin (R15). -/
def MapRecord.reach (m : MapRecord) : Int := ((m.nodes.length : Int) - 1) * m.spacing

/-- What a map contributes to a sample at `u` on its axis (R14, R15, R16). -/
def MapRecord.use (m : MapRecord) (u : Int) : MapUse :=
  if m.state ≠ .ready then ⟨⟨0, 0, 0, 0⟩, true, false⟩
  else
    let d := u - m.origin
    if d < 0 then ⟨m.nodeAt 0, false, true⟩
    else if m.reach ≤ d then ⟨m.nodeAt (m.nodes.length - 1), false, true⟩
    else
      let i := (d / m.spacing).toNat
      ⟨nodeBetween (m.nodeAt i) (m.nodeAt (i + 1)) (d % m.spacing) m.spacing, false, false⟩

/-! ### Temperatures (R11) -/

/-- What a group gives a thermal term: the temperature used, and the flags added. -/
structure GroupUse where
  temp : Option Int
  held : Bool
  lost : Bool
  absent : Bool
  spread : Bool
deriving DecidableEq, Repr

/-- No group, or an EMPTY one: the term is 0 and THERMAL_ABSENT is added (R11). -/
def GroupUse.missing : GroupUse := ⟨none, false, false, true, false⟩

/-- What a group gives by its state (R11). A VALID, HELD or LOST group has a value (log entry 17). -/
def Group.use (g : Group) : GroupUse :=
  match g.state, g.value with
  | .valid, some v => ⟨some v, false, false, false, g.spread⟩
  | .held, some v => ⟨some v, true, false, false, g.spread⟩
  | .lost, some v => ⟨some v, false, true, false, g.spread⟩
  | _, _ => GroupUse.missing

/-- What the group named for a term gives (R11). -/
def Device.groupUse (d : Device) (g : Nat) : GroupUse := if g = 0 then GroupUse.missing else (d.group g).use

/-- A thermal term: minus the rounded quotient of `length · α · (T − 20,000)` by 10¹², 0 without a temperature (R8, R19, R21). -/
def thermalTerm (length : Int) (alpha : Nat) (t : Option Int) : Int :=
  match t with
  | none => 0
  | some v => -(roundDiv (length * alpha * (v - Config.referenceTemperature)) 1000000000000)

/-! ### Stages 2 to 6 -/

/-- The inputs of the stages, read at the service event (R5). -/
structure CorrectionInput where
  sample : Point
  mapX : MapUse
  mapY : MapUse
  mapZ : MapUse
  scaleX : Scale
  scaleY : Scale
  scaleZ : Scale
  tempX : GroupUse
  tempY : GroupUse
  tempZ : GroupUse
  offset : Point
  workpieceTemp : GroupUse
  workpieceAlpha : Nat
  datum : Point
deriving DecidableEq, Repr

/-- The terms of the stages and the corrected coordinates before and after saturation. -/
structure Correction where
  g : Point
  a : Point
  c : Point
  p : Point
  w : Point
  exact : Point
  q : Point
deriving DecidableEq, Repr

/-- Componentwise sum. -/
def addPoints (p q : Point) : Point := ⟨p.x + q.x, p.y + q.y, p.z + q.z⟩

/-- Componentwise difference. -/
def subPoints (p q : Point) : Point := ⟨p.x - q.x, p.y - q.y, p.z - q.z⟩

/-- Componentwise saturation (R21). -/
def saturatePoint (p : Point) : Point := ⟨saturate p.x, saturate p.y, saturate p.z⟩

/-- Stage 2, the geometric term (R17). -/
def geometricTerm (x y z : MapNode) : Point :=
  ⟨-(x.ep + y.es1 + z.es1), -(x.es1 + y.ep + z.es2), -(x.es2 + y.es2 + z.ep)⟩

/-- Stage 3, the Abbe term (R18). -/
def abbeTerm (x y z : MapNode) (o : Point) : Point :=
  ⟨roundDiv (x.ang * o.z) 10000000, roundDiv (y.ang * o.z) 10000000, roundDiv (z.ang * o.y) 10000000⟩

/-- Stages 2 to 6 (R17 to R21). -/
def CorrectionInput.compute (i : CorrectionInput) : Correction :=
  let g := geometricTerm i.mapX.comp i.mapY.comp i.mapZ.comp
  let a := abbeTerm i.mapX.comp i.mapY.comp i.mapZ.comp i.offset
  let c : Point :=
    ⟨thermalTerm (i.sample.x - i.scaleX.r) i.scaleX.alpha i.tempX.temp,
     thermalTerm (i.sample.y - i.scaleY.r) i.scaleY.alpha i.tempY.temp,
     thermalTerm (i.sample.z - i.scaleZ.r) i.scaleZ.alpha i.tempZ.temp⟩
  let p := addPoints (addPoints (subPoints (addPoints i.sample g) a) c) i.offset
  let w : Point :=
    ⟨thermalTerm (p.x - i.datum.x) i.workpieceAlpha i.workpieceTemp.temp,
     thermalTerm (p.y - i.datum.y) i.workpieceAlpha i.workpieceTemp.temp,
     thermalTerm (p.z - i.datum.z) i.workpieceAlpha i.workpieceTemp.temp⟩
  let e := addPoints p w
  ⟨g, a, c, p, w, e, saturatePoint e⟩

/-- The flags of a served CORRECT: those of the inputs, the mismatch mark (R23), the active tip (R24), saturation (R21). -/
def CorrectionInput.flags (i : CorrectionInput) (mismatch tipNotQualified : Bool) : Flags where
  mapAbsent := i.mapX.absent || i.mapY.absent || i.mapZ.absent
  mapMismatch := mismatch
  outsideX := i.mapX.outside
  outsideY := i.mapY.outside
  outsideZ := i.mapZ.outside
  thermalHeld := i.tempX.held || i.tempY.held || i.tempZ.held || i.workpieceTemp.held
  thermalLost := i.tempX.lost || i.tempY.lost || i.tempZ.lost || i.workpieceTemp.lost
  thermalAbsent := i.tempX.absent || i.tempY.absent || i.tempZ.absent || i.workpieceTemp.absent
  spread := i.tempX.spread || i.tempY.spread || i.tempZ.spread || i.workpieceTemp.spread
  tipNotQualified := tipNotQualified
  saturated := saturates i.compute.exact.x || saturates i.compute.exact.y || saturates i.compute.exact.z

/-- The inputs of a CORRECT of arm `a` with raw sample `u` and active tip offset `o` (R10 to R14). -/
def Device.correctionInput (d : Device) (a : ArmId) (u o : Point) : CorrectionInput :=
  let m := d.cell.arm a
  { sample := u
    mapX := m.maps.x.use u.x
    mapY := m.maps.y.use u.y
    mapZ := m.maps.z.use u.z
    scaleX := m.settings.scaleX
    scaleY := m.settings.scaleY
    scaleZ := m.settings.scaleZ
    tempX := d.groupUse m.groups.x
    tempY := d.groupUse m.groups.y
    tempZ := d.groupUse m.groups.z
    offset := o
    workpieceTemp := d.groupUse d.workpiece.group
    workpieceAlpha := d.workpiece.alpha
    datum := d.workpiece.datum a }

end Sys2Proof.Machine
end

