-- ==== Sys2Proof/Machine/Probes.lean ====
section
/-! DEFINITION. The probe table: PROBE_DEFINE (R94), TIP_QUALIFY (R98 to R100), PROBE_RETIRE (R108, R109), READ_PROBE (R95, R203),
the service of REPORT_HIT (R106), and the counting of touches (R25, R26). Drift is in Temperature.lean, locations in
Latches.lean, the probe box in Envelope.lean. -/

namespace Sys2Proof.Machine

/-! ### PROBE_DEFINE (R94) -/

/-- A tip's geometry with its values clamped (R94, R99). -/
def clampTip (t : TipGeometry) : TipGeometry := ⟨t.offset.clamp (-5000000) 5000000, clampInt 0 100000 t.radius⟩

/-- The tip record that PROBE_DEFINE leaves (R94). -/
def freshTip (t : TipGeometry) : Tip := ⟨t.offset, t.radius, .unqualified, none, 0⟩

/-- Another record that is not FREE carries the identity code (R92, R94). -/
def Cell.codeTaken (c : Cell) (code : Nat) : Bool := c.probes.val.any (fun p => p.state != .free && p.code == code)

/-- PROBE_DEFINE (R94). -/
def serveProbeDefine (probe code home count touchLimit : Nat) (tips : List TipGeometry) (d : Device) : Served :=
  match armOfCode home with
  | none => .refuse d .badArg
  | some a =>
    if !numberOk 40 probe || !numberOk 65535 code || !numberOk 5 count || tips.length != count then .refuse d .badArg
    else if (d.cell.probe probe).state ≠ .free then .refuse d .badState
    else if d.cell.codeTaken code then .refuse d .duplicate
    else
      let r : Probe := ⟨.defined, code, a, .out, touchLimit, tips.map (fun t => freshTip (clampTip t))⟩
      ⟨d.onCell (fun c => c.modProbe probe (fun _ => r)), clampStatus (tips.map clampTip != tips), boxWords r.box⟩

/-! ### TIP_QUALIFY (R98 to R100) -/

/-- The probe's location is SEATED. -/
def Probe.isSeated (p : Probe) : Bool := p.location == .seated

/-- The value and state that the home arm's probe-environment group gives a qualification, none without one (R98, R100). -/
def Device.qualificationTemperature (d : Device) (a : ArmId) : Option (GroupState × Int) :=
  if d.envGroup a = 0 then none
  else
    match (d.group (d.envGroup a)).state, (d.group (d.envGroup a)).value with
    | .empty, _ => none
    | st, some v => some (st, v)
    | _, none => none

/-- A tip with the geometry, the temperature and the fresh count of a qualification (R100). -/
def qualifiedTip (t : TipGeometry) (v : Int) : Tip := ⟨t.offset, t.radius, .qualified, some v, 0⟩

/-- The probe with one tip qualified (R100). -/
def Probe.qualifyTip (p : Probe) (tip : Nat) (t : TipGeometry) (v : Int) : Probe :=
  { p with
    tips := changeNth p.tips tip (fun _ => qualifiedTip t v)
    state := match p.state with
      | .defined => .inService
      | .suspect => .inService
      | s => s }

/-- TIP_QUALIFY (R98 to R100); the probe is seated, so the bay test is made again with the new box (R172). -/
def serveTipQualify (probe tip : Nat) (offset : Point) (radius : Int) (d : Device) : Served :=
  let p := d.cell.probe probe
  let a := p.home
  if !numberOk 40 probe || !numberOk 5 tip then .refuse d .badArg
  else if p.state = .free then .refuse d .notFound
  else if p.tips.length < tip then .refuse d .badTip
  else if p.state = .retiring then .refuse d .retiring
  else if !p.isSeated then .refuse d .badState
  else if (d.cell.arm a).seq.state.inCycle then .refuse d .changing
  else
    match d.qualificationTemperature a with
    | none => .refuse d .noTemperature
    | some (st, v) =>
      let t : TipGeometry := ⟨offset, radius⟩
      let r := p.qualifyTip tip (clampTip t) v
      if (effectiveEnvelope (d.cell.arm a).settings r.box).emptyOnAxis then .refuse d .tooLarge
      else
        ⟨d.onCell (fun c => (c.modProbe probe (fun _ => r)).retest a), clampStatus (clampTip t != t),
         word2 v ++ word st.number ++ boxWords r.box⟩

/-! ### PROBE_RETIRE (R108, R109) -/

/-- PROBE_RETIRE (R108). -/
def serveProbeRetire (probe : Nat) (d : Device) : Served :=
  if !numberOk 40 probe then .refuse d .badArg
  else
    let p := d.cell.probe probe
    if p.state = .free then .refuse d .notFound
    else if p.state = .retiring then ⟨d, .ok, []⟩
    else if p.location = .out then ⟨d.onCell (fun c => c.freeProbe probe), .ok, []⟩
    else ⟨d.onCell (fun c => c.modProbe probe (fun r => { r with state := .retiring })), .ok, []⟩

/-! ### READ_PROBE (R95, R203) -/

/-- The numbers of R203. -/
def ProbeState.number : ProbeState → Nat
  | .free => 0 | .defined => 1 | .inService => 2 | .suspect => 3 | .retiring => 4

def TipState.number : TipState → Nat
  | .unqualified => 0 | .qualified => 1 | .drifted => 2 | .due => 3 | .suspect => 4

/-- The location and its detail (R203). -/
def locationWords (home : ArmId) : Location → List Word
  | .nowhere => word 0 ++ word 0
  | .out => word 1 ++ word 0
  | .rack port => word 2 ++ word port
  | .seated => word 3 ++ word (armCode home)
  | .unresolved => word 4 ++ word 0

/-- A tip record: 13 words (R203). -/
def tipWords (t : Tip) : List Word :=
  pointWords t.offset ++ word2 t.radius ++ word t.state.number ++ optionWords t.tq ++ word t.touches

/-- The READ_PROBE body (R203). -/
def probeWords (probe : Nat) (p : Probe) : List Word :=
  word probe ++ word p.state.number ++ word p.code ++ word (armCode p.home) ++ locationWords p.home p.location ++
    word p.tips.length ++ word p.touchLimit ++ boxWords p.box ++ p.tips.flatMap tipWords

/-- READ_PROBE (R95). -/
def serveReadProbe (probe : Nat) (d : Device) : Served :=
  if !numberOk 40 probe then .refuse d .badArg else ⟨d, .ok, probeWords probe (d.cell.probe probe)⟩

/-! ### Hits and touches -/

/-- A hit: every tip becomes SUSPECT, and the probe unless it is RETIRING (R106). -/
def Probe.hit (p : Probe) : Probe :=
  { p with
    tips := p.tips.map (fun t => { t with state := .suspect })
    state := match p.state with
      | .defined => .suspect
      | .inService => .suspect
      | s => s }

/-- Service of REPORT_HIT (R106). -/
def serveReportHit (a : ArmId) (tag : Nat) (c : Cell) : Cell :=
  if !c.running a then c.respond a .reportHit tag .badState 0 0
  else
    match (c.arm a).seq.seated with
    | .noProbe => c.respond a .reportHit tag .noProbe 0 0
    | .unknown => c.respond a .reportHit tag .noProbe 0 0
    | .probe p => ((c.modProbe p Probe.hit).addNotice (.probeSuspect p)).respond a .reportHit tag .ok p 0

/-- The touch count after one more touch: 65,535 stays (R25). -/
def Tip.counted (t : Tip) : Nat := if t.touches < 65535 then t.touches + 1 else t.touches

/-- The touch brings the tip to its limit: a QUALIFIED or DRIFTED tip becomes DUE (R26). -/
def Tip.becomesDue (t : Tip) (limit : Nat) : Bool :=
  limit != 0 && decide (limit ≤ t.counted) && (t.state == .qualified || t.state == .drifted)

/-- A tip after a served TOUCH (R25, R26). -/
def Tip.touched (t : Tip) (limit : Nat) : Tip :=
  { t with touches := t.counted, state := if t.becomesDue limit then .due else t.state }

/-- A served TOUCH of tip `t` of probe `p` reaches the probe table (R25, R26). -/
def Cell.countTouch (c : Cell) (p t : Nat) : Cell :=
  let r := c.probe p
  let c1 := c.modProbe p (fun r => { r with tips := changeNth r.tips t (fun x => x.touched r.touchLimit) })
  match nth r.tips t with
  | none => c
  | some tip => if tip.becomesDue r.touchLimit then c1.addNotice (.tipDue p t) else c1

/-! ### The meanings -/

/-- PROBE_DEFINE (R94): 8 words and 8 for each tip (R203). -/
def execProbeDefine (probe code home count touchLimit : Nat) (tips : List TipGeometry) (s : State) :
    Host.Outcome State Fault Refusal :=
  s.command 769 (8 + 8 * tips.length) (serveProbeDefine probe code home count touchLimit tips)

/-- TIP_QUALIFY (R98 to R100). -/
def execTipQualify (probe tip : Nat) (offset : Point) (radius : Int) (s : State) : Host.Outcome State Fault Refusal :=
  s.command 770 12 (serveTipQualify probe tip offset radius)

/-- PROBE_RETIRE (R108). -/
def execProbeRetire (probe : Nat) (s : State) : Host.Outcome State Fault Refusal :=
  s.command 771 3 (serveProbeRetire probe)

/-- READ_PROBE (R95). -/
def execReadProbe (probe : Nat) (s : State) : Host.Outcome State Fault Refusal :=
  s.command 1281 3 (serveReadProbe probe)

end Sys2Proof.Machine
end

