-- ==== Sys2Proof/Machine/Correction.lean ====
section
/-! DEFINITION. The correction unit: the service of CORRECT (R5 to R7, R22 to R28) with the sample that it hands on (R144, R146,
R147, R171), and WORKPIECE_SET (R12). The stages are in Flags.lean. -/

namespace Sys2Proof.Machine

/-! ### The checks of CORRECT (R6) -/

/-- The seated probe's record, none for NONE and UNKNOWN. -/
def Cell.seatedProbe? (c : Cell) (a : ArmId) : Option Nat :=
  match (c.arm a).seq.seated with
  | .noProbe => none
  | .unknown => none
  | .probe p => some p

/-- The tip count of the seated probe, 0 without one. -/
def Cell.seatedTips (c : Cell) (a : ArmId) : Nat :=
  match c.seatedProbe? a with
  | none => 0
  | some p => (c.probe p).tips.length

/-- The code with which a CORRECT is refused, none if it is served (R6). A TOUCH in CHANGE_FAULT, where the seated field is UNKNOWN, is
NO_PROBE by the order and the table of R6; R136, which names CHANGING and refers to that chapter, is read as its check 4 in its place in
that order (log entry 33, DEDUCED). -/
def Cell.correctRefusal (c : Cell) (a : ArmId) (kind tip : Nat) : Option Status :=
  if !c.running a then some .badState
  else if (kind ≠ 1 ∧ kind ≠ 2) ∨ 5 < tip ∨ (kind = 2 ∧ tip = 0) then some .badArg
  else if tip ≠ 0 ∧ c.seatedProbe? a = none then some .noProbe
  else if kind = 2 ∧ (c.arm a).seq.state ≠ .idle then some .changing
  else if c.seatedTips a < tip then some .badTip
  else none

/-- The active tip's record: none for tip 0 (R13). -/
def Cell.activeTip (c : Cell) (a : ArmId) (tip : Nat) : Option Tip :=
  match c.seatedProbe? a with
  | none => none
  | some p => nth (c.probe p).tips tip

/-- The active tip's offset, (0, 0, 0) for tip 0 (R13). -/
def Cell.activeOffset (c : Cell) (a : ArmId) (tip : Nat) : Point :=
  match c.activeTip a tip with
  | none => Point.origin
  | some t => t.offset

/-- The active tip is another than QUALIFIED (R24). -/
def Cell.tipNotQualified (c : Cell) (a : ArmId) (tip : Nat) : Bool :=
  match c.activeTip a tip with
  | none => false
  | some t => t.state != .qualified

/-! ### The sample (R28, R144, R146, R147, R171) -/

/-- The exit set with the boxes that the sample has left taken out (R146). -/
def Arm.keptExits (m : Arm) (u : Point) : List Nat := m.exitSet.filter (fun b => m.insideRackBox b u)

/-- The arm with a new last sample and its exit set brought up to date (R144, R146). -/
def Arm.takeSample (m : Arm) (u : Point) : Arm :=
  if m.seq.state.inCycle then { m with lastSample := some u }
  else
    let kept := { m with exitSet := m.keptExits u, lastSample := some u }
    if m.lastSample = none then { kept with exitSet := kept.exitSet ++ kept.closedBoxesAt u } else kept

/-- The rack intrusion test of a sample (R147). -/
def Cell.rackTest (c : Cell) (a : ArmId) (u : Point) : Cell :=
  match (c.arm a).closedBoxesAt u with
  | [] => c
  | b :: _ => setStop a (.rack b) c

/-- A sample is handed on: last sample, exit set, rack test, then the bay test (R28, R144, R147, R171). -/
def Cell.handSample (c : Cell) (a : ArmId) (u : Point) : Cell :=
  bayTest setStop ((c.modArm a (fun m => m.takeSample u)).rackTest a u) a u

/-! ### Service of CORRECT -/

/-- What a TOUCH adds: the touch is counted (R25, R26). -/
def Cell.countIfTouch (c : Cell) (a : ArmId) (kind tip : Nat) : Cell :=
  match c.seatedProbe? a with
  | none => c
  | some p => if kind = 2 then c.countTouch p tip else c

/-- The response of a served CORRECT (R22). -/
def Device.correctResponse (d : Device) (a : ArmId) (tag tip : Nat) (u : Point) : TxFrame :=
  let i := d.correctionInput a u (d.cell.activeOffset a tip)
  .correctResponse tag .ok i.compute.q (i.flags (d.cell.arm a).mismatch (d.cell.tipNotQualified a tip))

/-- Service of CORRECT: refused (R6, R7), or the response, the touch and the sample, in that order (R22, R25, R28). -/
def serveCorrect (a : ArmId) (tag kind tip : Nat) (u : Point) (d : Device) : Device :=
  match d.cell.correctRefusal a kind tip with
  | some st => d.onCell (fun c => c.handOver a (.correctResponse tag st Point.origin Flags.none))
  | none =>
    d.onCell (fun c => ((c.handOver a (d.correctResponse a tag tip u)).countIfTouch a kind tip).handSample a u)

/-! ### WORKPIECE_SET (R12) -/

/-- WORKPIECE_SET (R12). -/
def serveWorkpieceSet (group alpha : Nat) (datumA datumB : Point) (d : Device) : Served :=
  if 12 < group then .refuse d .badArg
  else
    let w := clampNat 0 40000 alpha
    ⟨{ d with workpiece := ⟨group, w, datumA, datumB⟩ }, clampStatus (w != alpha), []⟩

/-- WORKPIECE_SET (R12). -/
def execWorkpieceSet (group alpha : Nat) (datumA datumB : Point) (s : State) : Host.Outcome State Fault Refusal :=
  s.command 260 16 (serveWorkpieceSet group alpha datumA datumB)

end Sys2Proof.Machine
end

