-- ==== Sys2Proof/Machine/Motion.lean ====
section
/-! DEFINITION. The envelope unit: ARM_CONFIG (R139, R140), the service of CHECK (R149 to R153), and READ_ARM (R12, R156,
R177). -/

namespace Sys2Proof.Machine

/-! ### ARM_CONFIG (R140) -/

/-- The settings with every value of step 4 clamped (R140). -/
def clampSettings (s : ArmSettings) : ArmSettings :=
  { s with
    unknownBox := s.unknownBox.clamp (-5100000) 5100000
    scaleX := ⟨s.scaleX.r, clampNat 0 40000 s.scaleX.alpha⟩
    scaleY := ⟨s.scaleY.r, clampNat 0 40000 s.scaleY.alpha⟩
    scaleZ := ⟨s.scaleZ.r, clampNat 0 40000 s.scaleZ.alpha⟩
    margin := clampInt 0 1000000 s.margin
    silence := clampNat 50 2000 s.silence }

/-- A lower bound exceeds its upper bound in one of the four boxes (R140, step 3). -/
def boundsCrossed (s : ArmSettings) : Bool :=
  s.carriage.emptyOnAxis || s.volume.emptyOnAxis || s.unknownBox.emptyOnAxis || s.staging.emptyOnAxis

/-- The box that a seated field gives with the settings `s` (R143). -/
def Cell.boxWith (c : Cell) (s : ArmSettings) : Seated → Box
  | .noProbe => Box.zero
  | .unknown => s.unknownBox
  | .probe p => (c.probe p).box

/-- The settings as a response carries them: the fields of R139 but the configured mark. -/
def settingsWords (s : ArmSettings) : List Word :=
  boxWords s.carriage ++ boxWords s.volume ++ boxWords s.unknownBox ++ boxWords s.staging ++
    word2 s.scaleX.r ++ word s.scaleX.alpha ++ word2 s.scaleY.r ++ word s.scaleY.alpha ++ word2 s.scaleZ.r ++
    word s.scaleZ.alpha ++ word2 s.bayOffset ++ word2 s.safeDepth ++ word2 s.margin ++ word s.silence

/-- ARM_CONFIG (R140). -/
def serveArmConfig (arm : Nat) (settings : ArmSettings) (d : Device) : Served :=
  match armOfCode arm with
  | none => .refuse d .badArg
  | some a =>
    let s := clampSettings settings
    let envelope := effectiveEnvelope s (d.cell.boxWith s (d.cell.arm a).seq.seated)
    if !d.cell.isOff a then .refuse d .badState
    else if boundsCrossed settings then .refuse d .badArg
    else if (effectiveEnvelope s s.unknownBox).emptyOnAxis then .refuse d .tooLarge
    else if envelope.emptyOnAxis then .refuse d .tooLarge
    else
      ⟨d.onCell (fun c => c.modArm a (fun m => { m with settings := s, configured := true })), clampStatus (s != settings),
       settingsWords s ++ boxWords envelope.saturated⟩

/-! ### CHECK (R149 to R153) -/

/-- A point clamped into a box, axis by axis (R150). -/
def clampInto (b : Box) (p : Point) : Point :=
  ⟨clampInt b.lo.x b.hi.x p.x, clampInt b.lo.y b.hi.y p.y, clampInt b.lo.z b.hi.z p.z⟩

/-- The box between two positions (R151). -/
def sweptBox (p q : Point) : Box := ⟨⟨min p.x q.x, min p.y q.y, min p.z q.z⟩, ⟨max p.x q.x, max p.y q.y, max p.z q.z⟩⟩

/-- The answer of a refused CHECK: result 0 and zeros (R149, R204). -/
def CheckAnswer.zero : CheckAnswer := ⟨.clear, Point.origin, false, false, false, 0, 0, 0⟩

/-- An answer to a target `t` clamped to `q` (R153). -/
def checkAnswer (result : CheckResult) (t q : Point) (kind number : Nat) : CheckAnswer :=
  ⟨result, q, t.x != q.x, t.y != q.y, t.z != q.z, kind, number, 0⟩

/-- The answer of a CHECK from last sample `u` with the latch clear (R150 to R153). -/
def Cell.judgeMove (c : Cell) (a : ArmId) (u t : Point) : CheckAnswer :=
  let q := clampInto (c.envelope a) t
  let swept := sweptBox u q
  match (c.arm a).closedBoxesOver swept with
  | b :: _ => checkAnswer .blockedRack t q 1 b
  | [] =>
    match c.bays.missing a (c.bays.neededBy (c.arm a).settings (c.usedBox a) swept.lo.x swept.hi.x swept.hi.z) with
    | k :: _ => checkAnswer .blockedBay t q 2 k
    | [] => checkAnswer (if t = q then .clear else .limited) t q 0 0

/-- The status and answer of a CHECK (R149). -/
def Cell.checkResult (c : Cell) (a : ArmId) (t : Point) : Status × CheckAnswer :=
  if !c.running a then (.badState, CheckAnswer.zero)
  else
    match (c.arm a).stop with
    | some cause =>
      let parts := stopCauseParts (some cause)
      (.ok, ⟨.blockedStopped, t, false, false, false, parts.1, parts.2.1, parts.2.2⟩)
    | none =>
      match (c.arm a).lastSample with
      | none => (.noPosition, CheckAnswer.zero)
      | some u => (.ok, c.judgeMove a u t)

/-- Service of CHECK: no record but the transmit list changes (R153). -/
def serveCheck (a : ArmId) (tag : Nat) (t : Point) (c : Cell) : Cell :=
  c.handOver a (.checkResponse tag (c.checkResult a t).1 (c.checkResult a t).2)

/-! ### READ_ARM (R12, R156, R177) -/

/-- The number of an arm mode (R202). -/
def Mode.number : Mode → Nat
  | .off => 0 | .starting => 1 | .run => 2

/-- The number of a phase: LISTEN 0, AGREE 1, none 2 (R177, R202). -/
def phaseNumber : Option Phase → Nat
  | some .listen => 0
  | some .agree => 1
  | none => 2

/-- The last sample or none: a present word, then the position. -/
def sampleWords : Option Point → List Word
  | none => word 0 ++ pointWords Point.origin
  | some p => word 1 ++ pointWords p

/-- A list of numbers with its count. -/
def listWords (l : List Nat) : List Word := word l.length ++ l.flatMap (fun (n : Nat) => word n)

/-- The three scale entries with their groups (R10, R12). -/
def scaleWords (s : ArmSettings) (g : ArmGroups) : List Word :=
  word2 s.scaleX.r ++ word s.scaleX.alpha ++ word g.x ++ word2 s.scaleY.r ++ word s.scaleY.alpha ++ word g.y ++
    word2 s.scaleZ.r ++ word s.scaleZ.alpha ++ word g.z

/-- The other fields of R139, with the configured mark. -/
def limitsWords (s : ArmSettings) (configured : Bool) : List Word :=
  boxWords s.carriage ++ boxWords s.volume ++ boxWords s.unknownBox ++ boxWords s.staging ++ word2 s.bayOffset ++
    word2 s.safeDepth ++ word2 s.margin ++ word s.silence ++ flagWord configured

/-- Three map tags, two words each. -/
def tagsWords (t : Tags) : List Word := word2 t.x ++ word2 t.y ++ word2 t.z

/-- The arm port's fields (R177). -/
def portWords (p : ArmPort) : List Word :=
  word (phaseNumber p.phase) ++ word p.attempts ++ tagsWords p.expected ++ word p.heldCode ++ word p.queue.length ++
    word p.transmit.length ++ word p.dropped

/-- READ_ARM (R12, R156, R177). The envelope is saturated without a flag (log entry 30, DESIGN CHOICE). -/
def serveReadArm (arm : Nat) (d : Device) : Served :=
  match armOfCode arm with
  | none => .refuse d .badArg
  | some a =>
    let m := d.cell.arm a
    ⟨d, .ok,
      scaleWords m.settings m.groups ++ pointWords (d.workpiece.datum a) ++ word d.workpiece.group ++ word d.workpiece.alpha ++
        limitsWords m.settings m.configured ++ word m.port.mode.number ++ sampleWords m.lastSample ++ listWords (m.rackBoxNumbers.filter m.exitSet.contains) ++
        listWords m.openBoxes ++ boxWords (d.cell.envelope a).saturated ++ boxWords (d.cell.usedBox a) ++ portWords m.port⟩

/-! ### The meanings -/

/-- ARM_CONFIG (R140). -/
def execArmConfig (arm : Nat) (settings : ArmSettings) (s : State) : Host.Outcome State Fault Refusal :=
  s.command 257 67 (serveArmConfig arm settings)

/-- READ_ARM (R156). -/
def execReadArm (arm : Nat) (s : State) : Host.Outcome State Fault Refusal := s.command 1288 3 (serveReadArm arm)

end Sys2Proof.Machine
end

