-- ==== Sys2Proof/Machine/ArmPort.lean ====
section
/-! DEFINITION. The arm ports: ARM_ENABLE and ARM_DISABLE (R178, R179), the frames of bring-up (R180 to R185), the silence timer
(R186), the request queue and the service of requests (R188, R189), and the transmit list (R190). Leaving RUN (R187) is in
Latches.lean. -/

namespace Sys2Proof.Machine

/-! ### ARM_ENABLE and ARM_DISABLE -/

/-- ARM_ENABLE (R178). -/
def serveArmEnable (arm : Nat) (d : Device) : Served :=
  match armOfCode arm with
  | none => .refuse d .badArg
  | some a =>
    if !d.cell.isOff a then .refuse d .badState
    else if (d.cell.arm a).maps.anyLoading then .refuse d .badState
    else if !(d.cell.arm a).configured || d.cell.bays.count == 0 then .refuse d .notConfigured
    else
      ⟨d.onCell (fun c => c.modPort a (fun p =>
        { p with mode := .starting, phase := some .listen, attempts := 0, dropped := 0, phaseTimer := some Config.listenTime })),
       .ok, []⟩

/-- The port goes OFF from STARTING: phase, timer, queue and transmit list (R179, R184, R187). -/
def ArmPort.stop (p : ArmPort) : ArmPort := { p.discard with mode := .off, phase := none, phaseTimer := none }

/-- ARM_DISABLE (R179). -/
def serveArmDisable (arm : Nat) (d : Device) : Served :=
  match armOfCode arm with
  | none => .refuse d .badArg
  | some a =>
    match d.cell.mode a with
    | .off => ⟨d, .ok, []⟩
    | .starting => ⟨d.onCell (fun c => c.modPort a ArmPort.stop), .ok, []⟩
    | .run => ⟨d.onCell (fun c => c.leaveRun a .off none), .ok, []⟩

/-! ### Bring-up (R181 to R184) -/

/-- An attempt has failed: the third takes the arm to OFF with ARM_LINK, otherwise the port listens again (R181, R183, R184). -/
def Cell.countAttempt (c : Cell) (a : ArmId) : Cell :=
  let n := (c.arm a).port.attempts + 1
  let c1 := c.modPort a (fun p => { p with attempts := n, phase := some .listen, phaseTimer := some Config.listenTime })
  if n < Config.attemptLimit then c1 else (c1.modPort a ArmPort.stop).addNotice (.armLink a .attempts)

/-- What a held code resolves to (R182). -/
inductive Resolution
  /-- the sequencer is in CHANGE_FAULT: nothing changes -/
  | keep
  | empty
  | same (q : Nat)
  | seat (p : Nat)
  | inRack (port : Nat)
  | stranger
deriving DecidableEq, Repr

/-- The probe that is SEATED on an arm (R182). -/
def Cell.seatedOn (c : Cell) (a : ArmId) : Option Nat :=
  (c.probes.numbered.find? (fun x => x.2.state != .free && x.2.home == a && x.2.location == .seated)).map Prod.fst

/-- The probe that carries an identity code (R92). -/
def Cell.probeWithCode (c : Cell) (code : Nat) : Option Nat :=
  (c.probes.numbered.find? (fun x => x.2.state != .free && x.2.code == code)).map Prod.fst

/-- The resolution of a held code (R182). -/
def Cell.resolution (c : Cell) (a : ArmId) (code : Nat) : Resolution :=
  match (c.arm a).seq.state with
  | .changeFault _ _ _ => .keep
  | _ =>
    if code = 0 then .empty
    else
      match c.probeWithCode code with
      | none => .stranger
      | some p =>
        if c.seatedOn a = some p then .same p
        else if (c.probe p).home ≠ a then .stranger
        else
          match (c.probe p).location with
          | .out => .seat p
          | .rack port => .inRack port
          | _ => .stranger

/-- The seated field after a resolution, `now` being the present one (R182). -/
def Resolution.seated (now : Seated) : Resolution → Seated
  | .keep => now
  | .empty => .noProbe
  | .same q => .probe q
  | .seat p => .probe p
  | .inRack _ => .unknown
  | .stranger => .unknown

/-- The probe that was SEATED goes OUT, its VACANT port becomes EMPTY (R97, R182). -/
def Cell.unseat (c : Cell) (a : ArmId) : Cell :=
  match c.seatedOn a with
  | none => c
  | some q => (c.dropVacancy a q).probeOut q

/-- The probe table's and the rack monitor's side of a resolution (R182). -/
def Cell.applyRecords (c : Cell) (a : ArmId) : Resolution → Cell
  | .keep => c
  | .same _ => c
  | .empty => c.unseat a
  | .stranger => c.unseat a
  | .inRack port => (c.unseat a).addNotice (.portMismatch a port)
  | .seat p => ((c.unseat a).dropExpectation a p).placeProbe p .seated

/-- A resolution is applied (R182). -/
def Cell.applyResolution (c : Cell) (a : ArmId) (r : Resolution) : Cell :=
  (c.applyRecords a r).modSeq a (fun q => { q with seated := r.seated (c.arm a).seq.seated })

/-- The identity code that AGREE carries: the seated probe's, or 0 (R183). -/
def Cell.codeOf (c : Cell) : Seated → Nat
  | .probe p => (c.probe p).code
  | .noProbe => 0
  | .unknown => 0

/-- AGREE is handed over, and the phase becomes AGREE (R183, R45). -/
def Cell.agree (c : Cell) (a : ArmId) : Cell :=
  let tags := (c.arm a).maps.presented
  let seated := (c.arm a).seq.seated
  (c.handOver a (.agree tags seated (c.codeOf seated))).modPort a
    (fun p => { p with agreeTags := tags, phase := some .agree, phaseTimer := some Config.agreeTime })

/-- A HELLO is taken in STARTING: its fields are stored, and it is resolved and judged (R181 to R184). -/
def Cell.takeHello (c : Cell) (a : ArmId) (tags : Tags) (code : Nat) : Cell :=
  let c1 := c.modPort a (fun p => { p with expected := tags, heldCode := code, phaseTimer := none })
  let r := c1.resolution a code
  if (c1.envelopeFor a (r.seated (c1.arm a).seq.seated)).emptyOnAxis then (c1.handOver a (.refuse code)).countAttempt a
  else (c1.applyResolution a r).agree a

/-- A restart of the arm controller: a HELLO in RUN (R185). -/
def Cell.restart (c : Cell) (a : ArmId) : Cell :=
  ((c.leaveRun a .starting (some .listen)).addNotice (.armLink a .restart)).modPort a (fun p => { p with attempts := 0 })

/-- A HELLO is received (R180, R181, R184, R185). -/
def Cell.helloReceived (c : Cell) (a : ArmId) (letter : Nat) (tags : Tags) (code : Nat) : Cell :=
  if letter ≠ armCode a then c
  else
    match c.mode a with
    | .off => c
    | .starting => c.takeHello a tags code
    | .run => (c.restart a).takeHello a tags code

/-- A READY is received: taken in AGREE alone, where the arm enters RUN (R180, R184, R45). -/
def Cell.readyReceived (c : Cell) (a : ArmId) : Cell :=
  if c.mode a = .starting ∧ (c.arm a).port.phase = some .agree then
    c.modArm a (fun m =>
      { m with
        mismatch := m.port.expected != m.port.agreeTags
        port := { m.port with
          mode := .run, phase := none, phaseTimer := none, silenceTimer := some m.settings.silence } })
  else c

/-- Expiry of the LISTEN timer (R181). -/
def Cell.listenExpiry (c : Cell) (a : ArmId) : Cell :=
  if (c.arm a).port.phase = some .listen ∧ (c.arm a).port.phaseTimer.isSome then c.countAttempt a else c

/-- Expiry of the AGREE timer (R184). -/
def Cell.agreeExpiry (c : Cell) (a : ArmId) : Cell :=
  if (c.arm a).port.phase = some .agree ∧ (c.arm a).port.phaseTimer.isSome then c.countAttempt a else c

/-- Expiry of the silence timer: the link is lost (R186). -/
def Cell.silenceExpiry (c : Cell) (a : ArmId) : Cell :=
  if c.running a && (c.arm a).port.silenceTimer.isSome then (c.leaveRun a .off none).addNotice (.armLink a .silence) else c

/-! ### Requests (R188, R189) -/

/-- Service of HEARTBEAT (R189). -/
def serveHeartbeat (a : ArmId) (tag : Nat) (c : Cell) : Cell :=
  c.respond a .heartbeat tag (if c.running a then .ok else .badState) 0 0

/-- A request is served by the rule of its kind (R189). -/
def serveRequest (a : ArmId) : Request → Device → Device
  | .correct tag kind tip u => serveCorrect a tag kind tip u
  | .check tag t => fun d => d.onCell (serveCheck a tag t)
  | .reserve tag first last wait => fun d => d.onCell (serveReserve a tag first last wait)
  | .release tag first last => fun d => d.onCell (serveRelease a tag first last)
  | .changeBegin tag t => fun d => d.onCell (serveChangeBegin a tag t)
  | .changeAbort tag => fun d => d.onCell (serveChangeAbort a tag)
  | .reportStaged tag => fun d => d.onCell (serveReportStaged a tag)
  | .reportId tag code => fun d => d.onCell (serveReportId a tag code)
  | .reportHit tag => fun d => d.onCell (serveReportHit a tag)
  | .heartbeat tag => fun d => d.onCell (serveHeartbeat a tag)

/-- The response to a request that finds the queue full (R188). -/
def fullResponse : Request → TxFrame
  | .correct tag _ _ _ => .correctResponse tag .full Point.origin Flags.none
  | .check tag _ => .checkResponse tag .full CheckAnswer.zero
  | .reserve tag _ _ _ => .shortResponse .reserve tag .full 0 0
  | .release tag _ _ => .shortResponse .release tag .full 0 0
  | .changeBegin tag _ => .shortResponse .changeBegin tag .full 0 0
  | .changeAbort tag => .shortResponse .changeAbort tag .full 0 0
  | .reportStaged tag => .shortResponse .reportStaged tag .full 0 0
  | .reportId tag _ => .shortResponse .reportId tag .full 0 0
  | .reportHit tag => .shortResponse .reportHit tag .full 0 0
  | .heartbeat tag => .shortResponse .heartbeat tag .full 0 0

/-- The transmit list allows a service (R188). -/
def ArmPort.mayServe (p : ArmPort) : Bool := decide (p.transmit.length ≤ Config.serviceLimit)

/-- A request frame restarts the silence timer in RUN (R186). -/
def Cell.heard (c : Cell) (a : ArmId) : Cell :=
  c.modArm a (fun m =>
    if m.port.mode = .run then { m with port := { m.port with silenceTimer := some m.settings.silence } } else m)

/-- The queue of an arm loses its head. -/
def Cell.popRequest (c : Cell) (a : ArmId) : Cell := c.modPort a (fun p => { p with queue := p.queue.drop 1 })

/-- The head of an arm's request queue is taken into service, if the transmit list allows it (R188). -/
def Device.serveHead (d : Device) (a : ArmId) : Device :=
  match (d.cell.arm a).port.queue with
  | [] => d
  | r :: _ => if (d.cell.arm a).port.mayServe then serveRequest a r (d.onCell (fun c => c.popRequest a)) else d

/-- The requests that may be taken into service are served, up to `n` of them (R188). -/
def Device.serveWaiting (a : ArmId) : Nat → Device → Device
  | 0, d => d
  | n + 1, d => Device.serveWaiting a n (d.serveHead a)

/-- A request is offered to the queue (R188). -/
def Cell.offer (c : Cell) (a : ArmId) (r : Request) : Cell :=
  if (c.arm a).port.queue.length < Config.requestRoom then c.modPort a (fun p => { p with queue := p.queue ++ [r] })
  else c.handOver a (fullResponse r)

/-- A request arrives: discarded in OFF; otherwise it is offered to the queue, and the heads that may be served are served at once
(R180, R186, R188). -/
def requestArrives (a : ArmId) (r : Request) (d : Device) : Device :=
  if d.cell.isOff a then d
  else Device.serveWaiting a Config.requestRoom (d.onCell (fun c => (c.heard a).offer a r))

/-- The service of a request as one event: the request that arrives on an empty queue and is served at its arrival (R188, note), or
the head of the queue when it is that request. No other case is a service event, and nothing changes (log entry 5). -/
def serviceEvent (a : ArmId) (r : Request) (d : Device) : Device :=
  if d.cell.isOff a || !(d.cell.arm a).port.mayServe then d
  else
    match (d.cell.arm a).port.queue with
    | [] => serveRequest a r (d.onCell (fun c => c.heard a))
    | h :: _ => if h = r then d.serveHead a else d

/-! ### The transmit list (R190) -/

/-- The last byte of the oldest frame has been sent: it leaves the list (R190). -/
def ArmPort.frameSent (p : ArmPort) : ArmPort := { p with transmit := p.transmit.drop 1 }

/-! ### The meanings -/

/-- ARM_ENABLE (R178). -/
def execArmEnable (arm : Nat) (s : State) : Host.Outcome State Fault Refusal := s.command 1025 3 (serveArmEnable arm)

/-- ARM_DISABLE (R179). -/
def execArmDisable (arm : Nat) (s : State) : Host.Outcome State Fault Refusal := s.command 1026 3 (serveArmDisable arm)

/-- A HELLO (R180 to R185). -/
def execHello (link : ArmId) (letter : Nat) (tags : Tags) (code : Nat) (s : State) : Host.Outcome State Fault Refusal :=
  s.event (fun d => d.onCell (fun c => c.helloReceived link letter tags code))

/-- A READY (R184). -/
def execReady (link : ArmId) (s : State) : Host.Outcome State Fault Refusal :=
  s.event (fun d => d.onCell (fun c => c.readyReceived link))

/-- A frame that is discarded: it restarts no timer and is not answered (R180). -/
def execArmFrameDiscarded (_link : ArmId) (s : State) : Host.Outcome State Fault Refusal := s.event (fun d => d)

/-- Expiry of the LISTEN timer (R181). -/
def execListenTimerExpiry (link : ArmId) (s : State) : Host.Outcome State Fault Refusal :=
  s.event (fun d => d.onCell (fun c => c.listenExpiry link))

/-- Expiry of the AGREE timer (R184). -/
def execAgreeTimerExpiry (link : ArmId) (s : State) : Host.Outcome State Fault Refusal :=
  s.event (fun d => d.onCell (fun c => c.agreeExpiry link))

/-- Expiry of the silence timer (R186). -/
def execSilenceTimerExpiry (link : ArmId) (s : State) : Host.Outcome State Fault Refusal :=
  s.event (fun d => d.onCell (fun c => c.silenceExpiry link))

/-- A request arrives (R188). -/
def execRequestArrival (link : ArmId) (request : Request) (s : State) : Host.Outcome State Fault Refusal :=
  s.event (requestArrives link request)

/-- A frame has been sent (R190): the heads that the shorter list lets be served are served at once (R188). -/
def execFrameSent (link : ArmId) (s : State) : Host.Outcome State Fault Refusal :=
  s.event (fun d => Device.serveWaiting link Config.requestRoom (d.onCell (fun c => c.modPort link ArmPort.frameSent)))

/-- Service of CORRECT (R5). -/
def execCorrect (link : ArmId) (tag kind tip : Nat) (u : Point) (s : State) : Host.Outcome State Fault Refusal :=
  s.event (serviceEvent link (.correct tag kind tip u))

/-- Service of CHECK (R149). -/
def execCheck (link : ArmId) (tag : Nat) (target : Point) (s : State) : Host.Outcome State Fault Refusal :=
  s.event (serviceEvent link (.check tag target))

/-- Service of RESERVE (R160). -/
def execReserve (link : ArmId) (tag first last wait : Nat) (s : State) : Host.Outcome State Fault Refusal :=
  s.event (serviceEvent link (.reserve tag first last wait))

/-- Service of RELEASE (R167). -/
def execRelease (link : ArmId) (tag first last : Nat) (s : State) : Host.Outcome State Fault Refusal :=
  s.event (serviceEvent link (.release tag first last))

/-- Service of CHANGE_BEGIN (R123). -/
def execChangeBegin (link : ArmId) (tag target : Nat) (s : State) : Host.Outcome State Fault Refusal :=
  s.event (serviceEvent link (.changeBegin tag target))

/-- Service of CHANGE_ABORT (R133). -/
def execChangeAbortArm (link : ArmId) (tag : Nat) (s : State) : Host.Outcome State Fault Refusal :=
  s.event (serviceEvent link (.changeAbort tag))

/-- Service of REPORT_STAGED (R126). -/
def execReportStaged (link : ArmId) (tag : Nat) (s : State) : Host.Outcome State Fault Refusal :=
  s.event (serviceEvent link (.reportStaged tag))

/-- Service of REPORT_ID (R127, R129). -/
def execReportId (link : ArmId) (tag code : Nat) (s : State) : Host.Outcome State Fault Refusal :=
  s.event (serviceEvent link (.reportId tag code))

/-- Service of REPORT_HIT (R106). -/
def execReportHit (link : ArmId) (tag : Nat) (s : State) : Host.Outcome State Fault Refusal :=
  s.event (serviceEvent link (.reportHit tag))

/-- Service of HEARTBEAT (R189). -/
def execHeartbeat (link : ArmId) (tag : Nat) (s : State) : Host.Outcome State Fault Refusal :=
  s.event (serviceEvent link (.heartbeat tag))

end Sys2Proof.Machine
end

