-- ==== Sys2Proof/Machine/Bus.lean ====
section
/-! DEFINITION. The sensor bus controller: the poll cycle (R55, R56), attempts and replies (R57), failed and good polls (R58,
R59), delivery (R60), the open slot (R61), announces (R62, R63), the line-stuck fault and its recovery (R65, R66, R67), and the
commands BUS_SET, NODE_ADD, NODE_REMOVE, BUS_ENABLE, BUS_DISABLE, BUS_RECOVER, ANNOUNCE_CLEAR, READ_NODE and READ_ANNOUNCE. -/

namespace Sys2Proof.Machine

/-- The bus record changed. -/
def Device.onBus (d : Device) (f : Bus → Bus) : Device := { d with bus := f d.bus }

/-- The controller's line driver: enabled in RUN, disabled in OFF and FAULTED (R50, R65, R66, R67, R200). R49 names no
driver: that BUS_ENABLE enables it is log entry 20, DEDUCED. -/
def Bus.driverEnabled (b : Bus) : Bool := b.state == .run

/-- A node record by number (R51). -/
def Bus.node (b : Bus) (k : Nat) : Node := b.nodes.get k Node.reset

def Bus.setNode (b : Bus) (k : Nat) (n : Node) : Bus := { b with nodes := b.nodes.set k n }

/-- The number of the configured node that carries a bus address (R51). -/
def Bus.nodeAt (b : Bus) (address : Nat) : Option Nat :=
  (b.nodes.numbered.find? (fun x => x.2.state != .unused && x.2.address == address)).map Prod.fst

/-! ### The poll cycle (R55, R56) -/

/-- A node is due: ONLINE or REJOINING, or OFFLINE in a cycle whose number is a multiple of 2^k (R56). -/
def Bus.due (b : Bus) (n : Node) : Bool :=
  match n.state with
  | .unused => false
  | .rejoining | .online => true
  | .offline => b.cycleNumber.toNat % 2 ^ b.rejoin == 0

/-- The lowest of a list of addresses. -/
def lowest : List Nat → Option Nat
  | [] => none
  | x :: xs => some (xs.foldl min x)

/-- The address of the next node to poll: the lowest due address above the one last polled in this cycle (R56). -/
def Bus.nextAddress (b : Bus) : Option Nat :=
  lowest ((b.nodes.val.filter (fun n => decide (b.lastPolled < n.address) && b.due n)).map (fun n => n.address))

/-- An attempt is sent: the poll frame goes out and no reply is awaited until it is sent (R57). -/
def Bus.sendAttempt (b : Bus) (attempt : Nat) : Bus := { b with attempt := attempt, sending := true, replyTimer := none }

/-- The controller chooses the next node, or the open slot begins (R56, R61). -/
def Bus.chooseNext (b : Bus) : Bus :=
  match b.nextAddress with
  | some address => { b.sendAttempt 0 with phase := .polling address, lastPolled := address }
  | none => { b with phase := .slot, slotTimer := some Config.slotTime, sending := false, replyTimer := none }

/-- A cycle starts with the present cycle number (R55). -/
def Bus.startCycle (b : Bus) : Bus := { b with lastPolled := 0 }.chooseNext

/-- The next cycle starts: the cycle number is incremented, 65,535 to 0 (R55). -/
def Bus.nextCycle (b : Bus) : Bus := { b with cycleNumber := b.cycleNumber + 1 }.startCycle

/-- A poll or open slot in progress ends without outcome; start pending and both announce sets are emptied (R50, R65). -/
def Bus.abandon (b : Bus) : Bus :=
  { b with
    phase := .between
    startPending := false
    previousSlot := []
    presentSlot := []
    sending := false
    replyTimer := none
    slotTimer := none }

/-! ### Polls (R57 to R60) -/

/-- One more missed poll, 15 staying 15 (R58). -/
def Node.miss (n : Node) : Node := { n with missed := if n.missed < 15 then n.missed + 1 else n.missed }

/-- A node after a failed poll (R58). -/
def Node.failed (n : Node) (longRetry : Nat) : Node :=
  let m := n.miss
  match n.state with
  | .online => if longRetry ≤ m.missed then { m with state := .offline } else m
  | .rejoining => if longRetry ≤ m.missed then { m with state := .offline, good := 0 } else { m with good := 0 }
  | _ => m

/-- A node after a good poll (R59). -/
def Node.succeeded (n : Node) : Node :=
  match n.state with
  | .rejoining =>
    if 2 ≤ n.good + 1 then { n with missed := 0, state := .online, good := 0 } else { n with missed := 0, good := n.good + 1 }
  | .offline => { n with missed := 0, state := .rejoining, good := 1 }
  | _ => { n with missed := 0 }

/-- The poll of an address has failed (R58); the next node is chosen. -/
def Device.pollFailed (d : Device) (address : Nat) : Device :=
  let d1 : Device := match d.bus.nodeAt address with
    | none => d
    | some k =>
      let n : Node := d.bus.node k
      let n' : Node := n.failed d.bus.longRetry
      let d2 := d.onBus (fun b => b.setNode k n')
      if n.state ≠ NodeState.offline ∧ n'.state = NodeState.offline then d2.addNotice (.nodeOffline k) else d2
  d1.onBus Bus.chooseNext

/-- Readings of a node are delivered, one for each channel index, ascending (R60). -/
def Device.deliverAll (d : Device) (node : Nat) (entries : List Int) : Device :=
  entries.zipIdx.foldl (fun d x => d.deliver node (x.2 + 1) x.1) d

/-- The poll of node `k` is good (R59): an ONLINE node's readings are delivered; the next node is chosen. -/
def Device.pollGood (d : Device) (k : Nat) (entries : List Int) : Device :=
  let n := d.bus.node k
  let d1 := d.onBus (fun b => b.setNode k n.succeeded)
  let d2 := if n.state = .online then d1.deliverAll k entries else d1
  d2.onBus Bus.chooseNext

/-- An attempt has missed: the next attempt is sent, or the poll has failed (R57). -/
def Device.attemptMissed (d : Device) (address : Nat) : Device :=
  if d.bus.attempt + 1 < 1 + d.bus.shortRetries then d.onBus (fun b => b.sendAttempt (b.attempt + 1)) else d.pollFailed address

/-- The address of the node whose reply is awaited: in POLLING with the reply timer running (R57). -/
def Bus.awaited (b : Bus) : Option Nat :=
  match b.state, b.phase, b.replyTimer with
  | .run, .polling address, some _ => some address
  | _, _, _ => none

/-- A frame received while a reply is awaited (R57, R205). -/
def Device.replyReceived (f : BusFrame) (d : Device) : Device :=
  match d.bus.awaited with
  | none => d
  | some address =>
    if !f.checkOk then d.attemptMissed address
    else if f.type ≠ 2 ∨ f.address ≠ address ∨ f.attempt ≠ d.bus.attempt then d
    else
      match d.bus.nodeAt address with
      | none => d
      | some k => if f.entries.length = (d.bus.node k).channels then d.pollGood k f.entries else d.attemptMissed address

/-- Expiry of the reply timer (R57). -/
def Device.replyTimeout (d : Device) : Device :=
  match d.bus.awaited with
  | none => d
  | some address => d.attemptMissed address

/-- The last bit of a poll frame has been sent: the reply timer starts (R57). -/
def Bus.pollSent (b : Bus) : Bus := if b.sending then { b with sending := false, replyTimer := some b.replyTimeout } else b

/-! ### The poll period timer and the open slot (R55, R61) -/

/-- Expiry of the poll period timer (R47, R55). -/
def Device.pollPeriodExpiry (d : Device) : Device :=
  if d.bus.periodTimer.isSome then
    let d1 := d.onBus (fun b => { b with periodTimer := some b.pollPeriod })
    match d1.bus.state, d1.bus.phase with
    | .run, .between => d1.onBus Bus.nextCycle
    | .run, _ => d1.onBus (fun b => { b with startPending := true })
    | _, _ => d1.evaluate
  else d

/-- End of the open slot: the announce sets rotate, the cycle-end signal is given, a pending cycle starts (R61). -/
def Device.slotEnd (d : Device) : Device :=
  if d.bus.slotTimer.isSome then
    let d1 := d.onBus (fun b => { b with previousSlot := b.presentSlot, presentSlot := [], slotTimer := none })
    let d2 := d1.evaluate.onBus (fun b => { b with phase := .between })
    if d2.bus.startPending then d2.onBus (fun b => { b with startPending := false }.nextCycle) else d2
  else d

/-! ### Announces (R62, R63) -/

/-- The announce list after a confirmed announce (R63). -/
def Bus.confirm (b : Bus) (x : Announce) : Bus :=
  if b.announces.any (fun y => y.address == x.address) then
    { b with announces := b.announces.map (fun y => if y.address = x.address then x else y) }
  else if b.announces.length < Config.announceRoom then { b with announces := b.announces ++ [x] }
  else { b with announceOverflow := true }

/-- A set of announces without an address. -/
def withoutAddress (l : List Announce) (address : Nat) : List Announce := l.filter (fun y => y.address != address)

/-- An announce that is not discarded by its own fields (R62). -/
def announceOk (checkOk : Bool) (x : Announce) : Bool :=
  checkOk && decide (1 ≤ x.address) && decide (x.address ≤ 62) && decide (1 ≤ x.channels) && decide (x.channels ≤ 4)

/-- An announce frame (R62): taken in an open slot, confirmed when the previous-slot set holds its address. -/
def Device.announceReceived (checkOk : Bool) (x : Announce) (d : Device) : Device :=
  if d.bus.phase = .slot ∧ announceOk checkOk x ∧ d.bus.nodeAt x.address = none then
    if d.bus.previousSlot.any (fun y => y.address == x.address) then
      (d.onBus (fun b => { b with previousSlot := withoutAddress b.previousSlot x.address }.confirm x)).addNotice
        (.nodeAnnounced x.address)
    else d.onBus (fun b => { b with presentSlot := withoutAddress b.presentSlot x.address ++ [x] })
  else d

/-! ### The line (R65 to R67) -/

/-- The address of the node whose poll is in progress, 0 if none is (R65). -/
def Bus.polledAddress (b : Bus) : Nat :=
  match b.phase with
  | .polling address => address
  | _ => 0

/-- The line has stood at the driven level for 5 ms: in RUN the bus becomes FAULTED (R65). -/
def Device.lineStuck (d : Device) : Device :=
  if d.bus.state = .run then
    (d.onBus (fun b =>
      { b.abandon with state := .faulted, stuckTimer := none, releasedTimer := none, lineDriven := true })).addNotice
      (.busFault d.bus.polledAddress)
  else d

/-- The stuck watch and the released timer after a change of the line level (R65, R66). -/
def Bus.watchLine (b : Bus) (driven : Bool) : Bus :=
  match b.state, driven with
  | .run, true => { b with stuckTimer := some Config.stuckTime }
  | .run, false => { b with stuckTimer := none }
  | .faulted, true => { b with releasedTimer := none }
  | .faulted, false => { b with releasedTimer := some Config.releasedTime }
  | .off, _ => b

/-- A change of the line level (R65, R66). -/
def Bus.lineChange (b : Bus) (driven : Bool) : Bus :=
  if b.lineDriven = driven then b else { b with lineDriven := driven }.watchLine driven

/-- The bus returns from FAULTED to RUN: timers, poll period restarted, a new cycle with the next number (R66). -/
def Bus.recover (b : Bus) : Bus :=
  { b with state := .run, releasedTimer := none, periodTimer := some b.pollPeriod }.nextCycle

/-- Expiry of the released timer (R66). -/
def Bus.releasedExpiry (b : Bus) : Bus :=
  if b.state = .faulted ∧ b.releasedTimer.isSome then b.recover else b

/-! ### Commands -/

/-- The five parameters as stored (R48). -/
def busParamWords (b : Bus) : List Word :=
  word b.pollPeriod ++ word b.replyTimeout ++ word b.shortRetries ++ word b.longRetry ++ word b.rejoin

/-- BUS_SET (R48). -/
def serveBusSet (period timeout shortRetries longRetry rejoin : Nat) (d : Device) : Served :=
  let d1 := d.onBus (fun b => { b with
    pollPeriod := clampNat 100 5000 period
    replyTimeout := clampNat 2 50 timeout
    shortRetries := clampNat 0 3 shortRetries
    longRetry := clampNat 1 15 longRetry
    rejoin := clampNat 0 6 rejoin })
  ⟨d1,
   clampStatus (d1.bus.pollPeriod != period || d1.bus.replyTimeout != timeout || d1.bus.shortRetries != shortRetries ||
     d1.bus.longRetry != longRetry || d1.bus.rejoin != rejoin),
   busParamWords d1.bus⟩

/-- Another configured record carries the address (R52, step 3). -/
def Bus.addressTaken (b : Bus) (address : Nat) : Bool := (b.nodeAt address).isSome

/-- NODE_ADD (R52). -/
def serveNodeAdd (node address channels : Nat) (d : Device) : Served :=
  if !numberOk 16 node || !numberOk 62 address || !numberOk 4 channels then .refuse d .badArg
  else if (d.bus.node node).state ≠ .unused then .refuse d .badState
  else if d.bus.addressTaken address then .refuse d .duplicate
  else
    ⟨d.onBus (fun b =>
      { b.setNode node ⟨address, channels, .rejoining, 0, 0⟩ with
        announces := withoutAddress b.announces address
        previousSlot := withoutAddress b.previousSlot address
        presentSlot := withoutAddress b.presentSlot address }), .ok, []⟩

/-- A configured channel names the node (R53). -/
def Device.nodeNamed (d : Device) (node : Nat) : Bool :=
  d.temp.channels.val.any (fun c => c.state != .unused && c.node == node)

/-- NODE_REMOVE (R53). -/
def serveNodeRemove (node : Nat) (d : Device) : Served :=
  if !numberOk 16 node then .refuse d .badArg
  else if (d.bus.node node).state = .unused then .refuse d .notFound
  else if d.nodeNamed node then .refuse d .inUse
  else
    let address := (d.bus.node node).address
    ⟨d.onBus (fun b =>
      let b1 := b.setNode node Node.reset
      if b1.phase = .polling address then b1.chooseNext else b1), .ok, []⟩

/-- A configured node set REJOINING with both counts 0 (R49). -/
def Node.rejoin (n : Node) : Node := if n.state = .unused then n else { n with state := .rejoining, missed := 0, good := 0 }

/-- BUS_ENABLE (R49). -/
def serveBusEnable (d : Device) : Served :=
  if d.bus.state ≠ .off then .refuse d .badState
  else
    ⟨d.onBus (fun b =>
      { b with
        state := .run
        cycleNumber := 0
        nodes := b.nodes.map Node.rejoin
        periodTimer := some b.pollPeriod
        stuckTimer := if b.lineDriven then some Config.stuckTime else none }.startCycle), .ok, []⟩

/-- BUS_DISABLE (R50). -/
def serveBusDisable (d : Device) : Served :=
  ⟨d.onBus (fun b => { b.abandon with state := .off, releasedTimer := none, stuckTimer := none }), .ok, []⟩

/-- BUS_RECOVER (R67). -/
def serveBusRecover (d : Device) : Served :=
  if d.bus.state ≠ .faulted then .refuse d .notFaulted
  else if d.bus.lineDriven then .refuse d .stillStuck
  else ⟨d.onBus Bus.recover, .ok, []⟩

/-- ANNOUNCE_CLEAR (R64). -/
def serveAnnounceClear (d : Device) : Served :=
  ⟨d.onBus (fun b => { b with announces := [], announceOverflow := false }), .ok, []⟩

/-- The number of a bus state (R202). -/
def BusState.number : BusState → Nat
  | .off => 0 | .run => 1 | .faulted => 2

/-- The number of a node state (R202). -/
def NodeState.number : NodeState → Nat
  | .unused => 0 | .rejoining => 1 | .online => 2 | .offline => 3

/-- The cycle phase with its address (R47, R202). -/
def cyclePhaseWords : CyclePhase → List Word
  | .between => word 0 ++ word 0
  | .polling address => word 1 ++ word address
  | .slot => word 2 ++ word 0

/-- READ_NODE (R54). -/
def serveReadNode (node : Nat) (d : Device) : Served :=
  if 16 < node then .refuse d .badArg
  else if node = 0 then
    ⟨d, .ok,
      word d.bus.state.number ++ busParamWords d.bus ++ word d.bus.cycleNumber.toNat ++ cyclePhaseWords d.bus.phase ++
        flagWord d.bus.startPending⟩
  else
    let n := d.bus.node node
    ⟨d, .ok, word n.address ++ word n.channels ++ word n.state.number ++ word n.missed ++ word n.good⟩

/-- READ_ANNOUNCE (R64). -/
def serveReadAnnounce (d : Device) : Served :=
  ⟨d, .ok,
    word d.bus.announces.length ++
      d.bus.announces.flatMap (fun x => word x.address ++ word x.channels ++ word x.kind) ++ flagWord d.bus.announceOverflow⟩

/-! ### The meanings -/

/-- BUS_SET (R48). -/
def execBusSet (period timeout shortRetries longRetry rejoin : Nat) (s : State) : Host.Outcome State Fault Refusal :=
  s.command 261 7 (serveBusSet period timeout shortRetries longRetry rejoin)

/-- NODE_ADD (R52). -/
def execNodeAdd (node address channels : Nat) (s : State) : Host.Outcome State Fault Refusal :=
  s.command 262 5 (serveNodeAdd node address channels)

/-- NODE_REMOVE (R53). -/
def execNodeRemove (node : Nat) (s : State) : Host.Outcome State Fault Refusal := s.command 263 3 (serveNodeRemove node)

/-- BUS_ENABLE (R49). -/
def execBusEnable (s : State) : Host.Outcome State Fault Refusal := s.command 1027 2 serveBusEnable

/-- BUS_DISABLE (R50). -/
def execBusDisable (s : State) : Host.Outcome State Fault Refusal := s.command 1028 2 serveBusDisable

/-- BUS_RECOVER (R67). -/
def execBusRecover (s : State) : Host.Outcome State Fault Refusal := s.command 1029 2 serveBusRecover

/-- ANNOUNCE_CLEAR (R64). -/
def execAnnounceClear (s : State) : Host.Outcome State Fault Refusal := s.command 1035 2 serveAnnounceClear

/-- READ_NODE (R54). -/
def execReadNode (node : Nat) (s : State) : Host.Outcome State Fault Refusal := s.command 1283 3 (serveReadNode node)

/-- READ_ANNOUNCE (R64). -/
def execReadAnnounce (s : State) : Host.Outcome State Fault Refusal := s.command 1284 2 serveReadAnnounce

/-- Expiry of the poll period timer (R55). -/
def execPollPeriodExpiry (s : State) : Host.Outcome State Fault Refusal := s.event Device.pollPeriodExpiry

/-- The last bit of a poll frame has been sent (R57). -/
def execPollSent (s : State) : Host.Outcome State Fault Refusal := s.event (fun d => d.onBus Bus.pollSent)

/-- A frame received on the sensor bus while a reply may be awaited (R57). -/
def execReply (frame : BusFrame) (s : State) : Host.Outcome State Fault Refusal := s.event (Device.replyReceived frame)

/-- Expiry of the reply timer (R57). -/
def execReplyTimeout (s : State) : Host.Outcome State Fault Refusal := s.event Device.replyTimeout

/-- End of the open slot (R61). -/
def execSlotEnd (s : State) : Host.Outcome State Fault Refusal := s.event Device.slotEnd

/-- An announce frame (R62). -/
def execAnnounce (checkOk : Bool) (address channels kind : Nat) (s : State) : Host.Outcome State Fault Refusal :=
  s.event (Device.announceReceived checkOk ⟨address, channels, kind⟩)

/-- The line has stood at the driven level for 5 ms (R65). -/
def execLineStuck (s : State) : Host.Outcome State Fault Refusal := s.event Device.lineStuck

/-- A change of the bus line's level (R65, R66): while the part is held in reset only the pin changes (R201, log entry 7). -/
def execBusLineLevelChange (driven : Bool) (s : State) : Host.Outcome State Fault Refusal :=
  .next { s with
    dev := s.dev.onBus (fun b => if s.dev.link.held then { b with lineDriven := driven } else b.lineChange driven) }

/-- Expiry of the released timer (R66). -/
def execReleasedTimerExpiry (s : State) : Host.Outcome State Fault Refusal := s.event (fun d => d.onBus Bus.releasedExpiry)

end Sys2Proof.Machine
end

