-- ==== Sys2Proof/Machine/CellLink.lean ====
section
/-! DEFINITION. The cell link's own part: read frames and frame errors (R192, R193), READ_NOTICES (R198), READ_ID (R196), the
attention hold (R199), and the reset in its three ways (R200, R201). Commands of other blocks reach it through
`State.command` of Ops.lean. -/

namespace Sys2Proof.Machine

/-! ### Frames that are no command (R192, R193) -/

/-- A read frame takes its words from the queue and is otherwise disregarded (R192). -/
def Device.readFrame (words : Nat) (d : Device) : Device := { d with link := d.link.clockOut words }

/-- The received command code of a frame error: 0 when the frame has fewer than one whole word (R192). -/
def receivedCode (code words : Nat) : Nat := if words = 0 then 0 else code

/-- A frame error: its words are clocked out, FRAME_ERROR is added, and a frame-error response is appended (R192, R193, R194). -/
def Device.frameError (reason : FrameReason) (code words : Nat) (d : Device) : Device :=
  let d1 := d.onCell (fun c => c.addNotice (.frameError reason (receivedCode code words)))
  { d1 with
    link := (d1.link.clockOut words).appendShort (BitVec.ofNat 16 (receivedCode code words)) .frameError (frameReasonCode reason) }

/-! ### READ_NOTICES (R198, R202) -/

/-- The number of a link reason (R197, R202). -/
def LinkReason.number : LinkReason → Nat
  | .silence => 0 | .restart => 1 | .attempts => 2

/-- The four argument words of a notice (R197, R202). -/
def noticeArguments : Notice → List Word
  | .nodeAnnounced address => word address ++ word 0 ++ word 0 ++ word 0
  | .nodeOffline node => word node ++ word 0 ++ word 0 ++ word 0
  | .busFault address => word address ++ word 0 ++ word 0 ++ word 0
  | .channelFault channel => word channel ++ word 0 ++ word 0 ++ word 0
  | .groupLost group => word group ++ word 0 ++ word 0 ++ word 0
  | .tipDrifted probe tip => word probe ++ word tip ++ word 0 ++ word 0
  | .tipDue probe tip => word probe ++ word tip ++ word 0 ++ word 0
  | .probeSuspect probe => word probe ++ word 0 ++ word 0 ++ word 0
  | .portMismatch arm port => word (armCode arm) ++ word port ++ word 0 ++ word 0
  | .probeRemoved probe => word probe ++ word 0 ++ word 0 ++ word 0
  | .changeDone arm => word (armCode arm) ++ word 0 ++ word 0 ++ word 0
  | .changeFault arm cause step => word (armCode arm) ++ word cause.number ++ word step.number ++ word 0
  | .stepSlow arm step => word (armCode arm) ++ word step.number ++ word 0 ++ word 0
  | .intrusion arm cause =>
    word (armCode arm) ++ word (stopCauseParts (some cause)).1 ++ word (stopCauseParts (some cause)).2.1 ++
      word (stopCauseParts (some cause)).2.2
  | .armLink arm reason => word (armCode arm) ++ word reason.number ++ word 0 ++ word 0
  | .frameError reason code => word (frameReasonCode reason) ++ word code ++ word 0 ++ word 0

/-- An entry: the cause numbered from 0, four argument words, the count (R202). -/
def noticeWords (e : NoticeEntry) : List Word := word ((e.notice.place : Int) - 1) ++ noticeArguments e.notice ++ word e.count

/-- The body of READ_NOTICES: the number of entries, then the entries (R198, R202). -/
def noticeBody (l : List NoticeEntry) : List Word := word l.length ++ l.flatMap noticeWords

/-- The empty notice set. -/
def emptyNotices : Table (Option NoticeEntry) 16 := Table.fill (Option NoticeEntry) 16 none

/-- READ_NOTICES (R198): with clear, the set is emptied and the attention hold starts (R199). -/
def serveReadNotices (clear : Nat) (d : Device) : Served :=
  match switchOfCode clear with
  | none => .refuse d .badArg
  | some false => ⟨d, .ok, noticeBody d.cell.noticeList⟩
  | some true =>
    ⟨{ d.onCell (fun c => { c with notices := emptyNotices }) with link := { d.link with hold := some Config.attentionHold } },
     .ok, noticeBody d.cell.noticeList⟩

/-- Expiry of the attention hold (R199). -/
def CellLink.holdExpiry (l : CellLink) : CellLink := { l with hold := none }

/-! ### READ_ID (R196) -/

/-- READ_ID (R196). -/
def serveReadId (d : Device) : Served :=
  ⟨d, .ok,
    word Config.vendorCode ++ word Config.partCode ++ word Config.revision ++ word2 d.cell.ms.toNat ++
      word d.link.source.number⟩

/-! ### Reset (R200, R201) -/

/-- The levels of the input lines as they stand. -/
def Device.pins (d : Device) : Pins := ⟨d.cell.armA.rack.lines, d.cell.armB.rack.lines, d.bus.lineDriven⟩

/-- The part is reset: every record takes its value after reset, the input lines keep their levels (R200, log entry 7). -/
def Device.resetBy (d : Device) (source : ResetSource) : Device := Device.reset source d.pins d.freeCount

/-- A RESET frame: with room in the queue the part is reset; otherwise it is answered as any command (R194, R200). -/
def Device.resetCommand (d : Device) : Device :=
  let d1 := { d with link := d.link.clockOut 2 }
  if Config.serveRoom ≤ d1.link.room then d1.resetBy .command
  else { d1 with link := d1.link.appendShort 1036 .busy 0 }

/-- Power-on: the part starts as at a deassertion of the reset input, with source POWER; an asserted input holds it (R201). -/
def Device.powerOn (d : Device) : Device :=
  let r := d.resetBy .power
  { r with link := { r.link with held := d.link.held } }

/-- The reset input is asserted: every value stands at its value after reset, and the part is held (R201). -/
def Device.assertReset (d : Device) : Device :=
  let r := d.resetBy .input
  { r with link := { r.link with held := true } }

/-- The reset input is deasserted: the part starts with source INPUT (R201). -/
def Device.releaseReset (d : Device) : Device := if d.link.held then d.resetBy .input else d

/-! ### The meanings -/

/-- RESET (R200). -/
def execReset (s : State) : Host.Outcome State Fault Refusal := s.event Device.resetCommand

/-- READ_NOTICES (R198). -/
def execReadNotices (clear : Nat) (s : State) : Host.Outcome State Fault Refusal := s.command 1290 3 (serveReadNotices clear)

/-- READ_ID (R196). -/
def execReadId (s : State) : Host.Outcome State Fault Refusal := s.command 1291 2 serveReadId

/-- A read frame of `words` words (R192). -/
def execReadFrame (words : Nat) (s : State) : Host.Outcome State Fault Refusal := s.event (Device.readFrame words)

/-- A frame error (R192). -/
def execCellFrameError (reason : FrameReason) (code words : Nat) (s : State) : Host.Outcome State Fault Refusal :=
  s.event (Device.frameError reason code words)

/-- Power-on (R201). -/
def execPowerOn (s : State) : Host.Outcome State Fault Refusal := .next { s with dev := s.dev.powerOn }

/-- The reset input is asserted (R201). -/
def execResetInputAssert (s : State) : Host.Outcome State Fault Refusal := .next { s with dev := s.dev.assertReset }

/-- The reset input is deasserted (R201). -/
def execResetInputRelease (s : State) : Host.Outcome State Fault Refusal := .next { s with dev := s.dev.releaseReset }

/-- Expiry of the attention hold (R199). -/
def execAttentionHoldExpiry (s : State) : Host.Outcome State Fault Refusal :=
  s.event (fun d => { d with link := d.link.holdExpiry })

end Sys2Proof.Machine
end

