-- ==== Sys2Proof/Machine/Racks.lean ====
section
/-! DEFINITION. The rack monitor: PORT_CONFIG (R112), EXPECT (R118), PORT_DISABLE and PORT_ENABLE (R120), READ_PORT (R121),
the line events (R113, R114), and the change sequencer's cell commands CHANGE_ABORT (R133) and CHANGE_RESOLVE (R137). -/

namespace Sys2Proof.Machine

/-! ### Lines (R113, R114) -/

/-- The taken level of a line. -/
def Port.taken (p : Port) : PortLine → Bool
  | .occupied => p.occupied
  | .head => p.head

/-- The filter timer of a line. -/
def Port.filter (p : Port) : PortLine → Timer
  | .occupied => p.occupiedFilter
  | .head => p.headFilter

def Port.setFilter (p : Port) (line : PortLine) (t : Timer) : Port :=
  match line with
  | .occupied => { p with occupiedFilter := t }
  | .head => { p with headFilter := t }

/-- A line takes a level; its filter stops. -/
def Port.take (p : Port) (line : PortLine) (level : Bool) : Port :=
  match line with
  | .occupied => { p with occupied := level, occupiedFilter := none }
  | .head => { p with head := level, headFilter := none }

/-- The present level of a line. -/
def PortLevels.level (l : PortLevels) : PortLine → Bool
  | .occupied => l.occupied
  | .head => l.head

def PortLevels.setLevel (l : PortLevels) (line : PortLine) (v : Bool) : PortLevels :=
  match line with
  | .occupied => { l with occupied := v }
  | .head => { l with head := v }

/-- The present levels of port `k`. -/
def Rack.levels (r : Rack) (k : Nat) : PortLevels := r.lines.get k ⟨false, false⟩

/-- A pin takes a level: an input, whatever the part does with it. -/
def Cell.setPin (c : Cell) (a : ArmId) (k : Nat) (line : PortLine) (level : Bool) : Cell :=
  c.modRack a (fun r => { r with lines := r.lines.set k ((r.levels k).setLevel line level) })

/-- A change of a line is taken and dispatched (R113, R115); no change, no dispatch. -/
def Cell.takeLine (c : Cell) (a : ArmId) (k : Nat) (line : PortLine) : Cell :=
  match c.port? a k with
  | none => c
  | some port =>
    let level := ((c.arm a).rack.levels k).level line
    let c1 := c.modRackPort a k (fun p => p.take line level)
    if port.taken line = level then c1 else c1.dispatchLine a k line level

/-- A change of a line's present level: it starts, restarts or ends its filter, is taken at once with filter time 0, and only
changes the present level while a mask runs or at a port that is not configured (R113, R114). -/
def Cell.lineChange (c : Cell) (a : ArmId) (k : Nat) (line : PortLine) (level : Bool) : Cell :=
  if ((c.arm a).rack.levels k).level line = level then c
  else
    let c1 := c.setPin a k line level
    match c1.port? a k with
    | none => c1
    | some port =>
      let r := (c1.arm a).rack
      if r.maskTimer.isSome then c1
      else if port.taken line = level then c1.modRackPort a k (fun p => p.setFilter line none)
      else if r.params.filterTime = 0 then c1.takeLine a k line
      else c1.modRackPort a k (fun p => p.setFilter line (some r.params.filterTime))

/-- Expiry of a line's filter timer: the new level is taken (R113). -/
def Cell.filterExpiry (c : Cell) (a : ArmId) (k : Nat) (line : PortLine) : Cell :=
  match c.port? a k with
  | none => c
  | some port => if (port.filter line).isSome then c.takeLine a k line else c

/-- The lines of the ports 1..n in the order of R114: ascending port, OCCUPIED before HEAD. -/
def linesInOrder (n : Nat) : List (Nat × PortLine) :=
  (List.range n).flatMap (fun i => [(i + 1, PortLine.occupied), (i + 1, PortLine.head)])

/-- End of a mask: each line that differs from its taken level is taken and dispatched in order (R114). -/
def Cell.maskEnd (c : Cell) (a : ArmId) : Cell :=
  if (c.arm a).rack.maskTimer.isSome then
    let c1 := c.modRack a (fun r => { r with maskTimer := none })
    let r := (c1.arm a).rack
    let differing := (linesInOrder r.ports.length).filter (fun x =>
      match nth r.ports x.1 with
      | none => false
      | some p => p.taken x.2 != (r.levels x.1).level x.2)
    differing.foldl (fun c x => c.takeLine a x.1 x.2) c1
  else c

/-! ### PORT_CONFIG (R112) -/

/-- The parameters with every value clamped into its range (R112). -/
def clampParams (p : PortParams) : PortParams :=
  { filterTime := clampNat 0 100 p.filterTime
    maskTime := clampNat 0 500 p.maskTime
    stepLimits := p.stepLimits.map (clampNat 100 60000)
    engageTime := clampNat 50 2000 p.engageTime
    learning := clampNat 0 3 p.learning
    slowFactor := clampNat 16 64 p.slowFactor }

/-- A port that a smaller port count may not remove (R112, step 3). -/
def PortState.inUse : PortState → Bool
  | .expecting _ | .holding _ | .vacant _ => true
  | .empty | .unknown | .disabled => false

/-- An added port: its taken levels are the present levels; UNKNOWN if OCCUPIED is set, EMPTY otherwise (R112). -/
def freshPort (l : PortLevels) (box : Box) : Port :=
  ⟨if l.occupied then .unknown else .empty, box, l.occupied, l.head, none, none⟩

/-- The ports after an accepted PORT_CONFIG: kept ports take their new approach box, added ports are fresh (R112). -/
def Rack.reconfigured (r : Rack) (boxes : List Box) : List Port :=
  boxes.zipIdx.map (fun x =>
    match r.ports[x.2]? with
    | some p => { p with box := x.1 }
    | none => freshPort (r.levels (x.2 + 1)) x.1)

/-- PORT_CONFIG (R112). -/
def servePortConfig (arm count : Nat) (boxes : List Box) (params : PortParams) (d : Device) : Served :=
  match armOfCode arm with
  | none => .refuse d .badArg
  | some a =>
    let m := d.cell.arm a
    if 10 < count ∨ boxes.length ≠ count then .refuse d .badArg
    else if !d.cell.isOff a ∨ m.seq.state ≠ .idle then .refuse d .badState
    else if (m.rack.ports.drop count).any (fun p => p.state.inUse) then .refuse d .inUse
    else
      ⟨d.onCell (fun c => c.modRack a (fun r => { r with ports := r.reconfigured boxes, params := clampParams params })),
       clampStatus (clampParams params != params), []⟩

/-! ### EXPECT, PORT_DISABLE, PORT_ENABLE (R118, R120) -/

/-- The status with which EXPECT of a probe 1..40 is refused after its arm and port are known (R118). -/
def Cell.expectRefusal (c : Cell) (a : ArmId) (k : Nat) (port : Port) (p : Nat) : Option Status :=
  let r := c.probe p
  if r.state = .free then some .notFound
  else if r.state = .retiring then some .retiring
  else if r.home ≠ a ∨ r.location ≠ .out then some .badState
  else if c.isPlanPort a k then some .badState
  else match port.state with
    | .empty => none
    | .expecting _ => none
    | _ => some .badState

/-- EXPECT (R118). -/
def serveExpect (arm port probe : Nat) (d : Device) : Served :=
  match armOfCode arm with
  | none => .refuse d .badArg
  | some a =>
    match d.cell.port? a port with
    | none => .refuse d .badArg
    | some rec =>
      if 40 < probe then .refuse d .badArg
      else if probe = 0 then
        match rec.state with
        | .expecting _ => ⟨d.onCell (fun c => c.setPortState a (some port) .empty), .ok, []⟩
        | _ => .refuse d .badState
      else
        match d.cell.expectRefusal a port rec probe with
        | some st => .refuse d st
        | none =>
          ⟨d.onCell (fun c => (c.dropExpectation a probe).setPortState a (some port) (.expecting probe)), .ok, []⟩

/-- PORT_DISABLE (R120). -/
def servePortDisable (arm port : Nat) (d : Device) : Served :=
  match armOfCode arm with
  | none => .refuse d .badArg
  | some a =>
    match d.cell.port? a port with
    | none => .refuse d .badArg
    | some rec =>
      if (rec.state = .empty ∨ rec.state = .unknown) ∧ !d.cell.isPlanPort a port then
        ⟨d.onCell (fun c => c.setPortState a (some port) .disabled), .ok, []⟩
      else .refuse d .badState

/-- PORT_ENABLE (R120). -/
def servePortEnable (arm port : Nat) (d : Device) : Served :=
  match armOfCode arm with
  | none => .refuse d .badArg
  | some a =>
    match d.cell.port? a port with
    | none => .refuse d .badArg
    | some rec =>
      if rec.state = .disabled then
        ⟨d.onCell (fun c => c.setPortState a (some port) (if rec.occupied then .unknown else .empty)), .ok, []⟩
      else .refuse d .badState

/-! ### READ_PORT (R121) -/

/-- A port state with its probe number (R202). -/
def portStateWords : PortState → List Word
  | .empty => word 0 ++ word 0
  | .expecting p => word 1 ++ word p
  | .holding p => word 2 ++ word p
  | .vacant p => word 3 ++ word p
  | .unknown => word 4 ++ word 0
  | .disabled => word 5 ++ word 0

/-- The sequencer state with its cause and step (R121, R202). -/
def seqStateWords : SeqState → List Word
  | .idle => word 0 ++ word 0 ++ word 0
  | .cycle step _ => word 1 ++ word 0 ++ word step.number
  | .changeFault cause step _ => word 2 ++ word cause.number ++ word step.number

/-- The step of a sequencer state, 0 in IDLE. -/
def SeqState.stepNumber : SeqState → Nat
  | .idle => 0
  | .cycle step _ => step.number
  | .changeFault _ step _ => step.number

/-- The change plan with its step and step entry time (R121, R122). How a plan part or a plan that is absent is sent is not stated: the
model sends the old probe, the target, the drop port and the pick port in one word each, 0 for none, without a present word; the
step once more as a field of the plan (R122), beside the one of the sequencer state; and seven zero words without a plan (log entry
36, DESIGN CHOICE). -/
def planWords (st : SeqState) : List Word :=
  match st.plan? with
  | none => word 0 ++ word 0 ++ word 0 ++ word 0 ++ word 0 ++ word2 0
  | some p =>
    word (p.old.getD 0) ++ word (p.target.getD 0) ++ word (p.drop.getD 0) ++ word (p.pick.getD 0) ++
      word st.stepNumber ++ word2 p.entry.toNat

/-- The parameters of R112. -/
def portParamsWords (p : PortParams) : List Word :=
  word p.filterTime ++ word p.maskTime ++ p.stepLimits.val.flatMap (fun (t : Nat) => word t) ++ word p.engageTime ++
    word p.learning ++ word p.slowFactor

/-- The learned-duration rings, each with its number of durations (R121). A duration takes two words: R132 forms it modulo
4,294,967,296 (log entry 32, DESIGN CHOICE). -/
def ringsWords (r : Table (List Nat) 8) : List Word :=
  r.val.flatMap (fun ring => word ring.length ++ ring.flatMap (fun (t : Nat) => word2 t))

/-- READ_PORT (R121). Whether the port is the drop port or the pick port of the plan is sent as two flag words, drop and then pick: R121
and R202 do not say one word or two (log entry 35, DESIGN CHOICE). -/
def serveReadPort (arm port : Nat) (d : Device) : Served :=
  match armOfCode arm with
  | none => .refuse d .badArg
  | some a =>
    let m := d.cell.arm a
    if port = 0 then
      ⟨d, .ok,
        word m.portCount ++ portParamsWords m.rack.params ++ word (seatedCode m.seq.seated) ++ seqStateWords m.seq.state ++
          planWords m.seq.state ++ flagWord m.seq.latch ++ flagWord m.rack.maskTimer.isSome ++ ringsWords m.seq.rings⟩
    else
      match d.cell.port? a port with
      | none => .refuse d .badArg
      | some p =>
        let plan := m.seq.state.plan?
        ⟨d, .ok,
          portStateWords p.state ++ boxWords p.box ++ flagWord p.occupied ++ flagWord p.head ++
            flagWord (plan.bind Plan.drop == some port) ++ flagWord (plan.bind Plan.pick == some port)⟩

/-! ### CHANGE_ABORT and CHANGE_RESOLVE on the cell link -/

/-- CHANGE_ABORT on the cell link (R133). -/
def serveChangeAbortCell (arm : Nat) (d : Device) : Served :=
  match armOfCode arm with
  | none => .refuse d .badArg
  | some a =>
    if (d.cell.arm a).seq.state.inCycle then ⟨d.onCell (fun c => c.abort a .cellAbort), .ok, []⟩
    else .refuse d .badState

/-- CHANGE_RESOLVE (R137). -/
def serveChangeResolve (arm seated drop pick : Nat) (d : Device) : Served :=
  match armOfCode arm with
  | none => .refuse d .badArg
  | some a =>
    match d.cell.resolveRefusal a seated drop pick with
    | some st => .refuse d st
    | none =>
      match (d.cell.arm a).seq.state.plan? with
      | none => .refuse d .badState
      | some p => ⟨d.onCell (fun c => c.resolveChange a p seated drop pick), .ok, []⟩

/-! ### The meanings -/

/-- PORT_CONFIG (R112): 18 words and 12 for each approach box. -/
def execPortConfig (arm count : Nat) (boxes : List Box) (params : PortParams) (s : State) : Host.Outcome State Fault Refusal :=
  s.command 258 (18 + 12 * boxes.length) (servePortConfig arm count boxes params)

/-- EXPECT (R118). -/
def execExpect (arm port probe : Nat) (s : State) : Host.Outcome State Fault Refusal :=
  s.command 772 5 (serveExpect arm port probe)

/-- PORT_DISABLE (R120). -/
def execPortDisable (arm port : Nat) (s : State) : Host.Outcome State Fault Refusal :=
  s.command 773 4 (servePortDisable arm port)

/-- PORT_ENABLE (R120). -/
def execPortEnable (arm port : Nat) (s : State) : Host.Outcome State Fault Refusal :=
  s.command 774 4 (servePortEnable arm port)

/-- CHANGE_ABORT on the cell link (R133). -/
def execChangeAbortCell (arm : Nat) (s : State) : Host.Outcome State Fault Refusal :=
  s.command 1032 3 (serveChangeAbortCell arm)

/-- CHANGE_RESOLVE (R137). -/
def execChangeResolve (arm seated drop pick : Nat) (s : State) : Host.Outcome State Fault Refusal :=
  s.command 1033 6 (serveChangeResolve arm seated drop pick)

/-- READ_PORT (R121). -/
def execReadPort (arm port : Nat) (s : State) : Host.Outcome State Fault Refusal :=
  s.command 1282 4 (serveReadPort arm port)

/-- Expiry of the step timer (R133). -/
def execStepTimerExpiry (link : ArmId) (s : State) : Host.Outcome State Fault Refusal :=
  s.event (fun d => d.onCell (fun c => c.stepTimerExpiry link))

/-- Expiry of the engage timer (R129). -/
def execEngageTimerExpiry (link : ArmId) (s : State) : Host.Outcome State Fault Refusal :=
  s.event (fun d => d.onCell (fun c => c.engageTimerExpiry link))

/-- A change of a port line (R113): while the part is held in reset only the pin changes (R201, log entry 7). -/
def execPortLineChange (link : ArmId) (port : Nat) (line : PortLine) (level : Bool) (s : State) :
    Host.Outcome State Fault Refusal :=
  .next { s with
    dev := s.dev.onCell (fun c => if s.dev.link.held then c.setPin link port line level else c.lineChange link port line level) }

/-- Expiry of a line's filter timer (R113). -/
def execFilterExpiry (link : ArmId) (port : Nat) (line : PortLine) (s : State) : Host.Outcome State Fault Refusal :=
  s.event (fun d => d.onCell (fun c => c.filterExpiry link port line))

/-- End of a mask (R114). -/
def execMaskEnd (link : ArmId) (s : State) : Host.Outcome State Fault Refusal :=
  s.event (fun d => d.onCell (fun c => c.maskEnd link))

end Sys2Proof.Machine
end

