-- ==== Sys2Proof/Machine/Dispatch.lean ====
section
/-! DEFINITION. One arm for each command of the table, each a call of its meaning. -/

namespace Sys2Proof.Machine

/-- The effect of a command on everything but the queue of commands. -/
def exec (i : Instr) (s : State) : Host.Outcome State Fault Refusal :=
  match i with
  | .armConfig arm settings => Sys2Proof.Machine.execArmConfig arm settings s
  | .portConfig arm count boxes params => Sys2Proof.Machine.execPortConfig arm count boxes params s
  | .bayConfig count origin width => Sys2Proof.Machine.execBayConfig count origin width s
  | .workpieceSet group alpha datumA datumB => Sys2Proof.Machine.execWorkpieceSet group alpha datumA datumB s
  | .busSet period timeout shortRetries longRetry rejoin => Sys2Proof.Machine.execBusSet period timeout shortRetries longRetry rejoin s
  | .nodeAdd node address channels => Sys2Proof.Machine.execNodeAdd node address channels s
  | .nodeRemove node => Sys2Proof.Machine.execNodeRemove node s
  | .channelSet channel node index group window stepLimit fine longStale rejectLimit staleTime => Sys2Proof.Machine.execChannelSet channel node index group window stepLimit fine longStale rejectLimit staleTime s
  | .channelRemove channel => Sys2Proof.Machine.execChannelRemove channel s
  | .groupSet group hold spread => Sys2Proof.Machine.execGroupSet group hold spread s
  | .tempSet drift groupsA groupsB => Sys2Proof.Machine.execTempSet drift groupsA groupsB s
  | .mapOpen arm axis tag origin spacing count => Sys2Proof.Machine.execMapOpen arm axis tag origin spacing count s
  | .mapNodes arm axis first entries => Sys2Proof.Machine.execMapNodes arm axis first entries s
  | .mapClose arm axis => Sys2Proof.Machine.execMapClose arm axis s
  | .mapClear arm axis => Sys2Proof.Machine.execMapClear arm axis s
  | .probeDefine probe code home count touchLimit tips => Sys2Proof.Machine.execProbeDefine probe code home count touchLimit tips s
  | .tipQualify probe tip offset radius => Sys2Proof.Machine.execTipQualify probe tip offset radius s
  | .probeRetire probe => Sys2Proof.Machine.execProbeRetire probe s
  | .expect arm port probe => Sys2Proof.Machine.execExpect arm port probe s
  | .portDisable arm port => Sys2Proof.Machine.execPortDisable arm port s
  | .portEnable arm port => Sys2Proof.Machine.execPortEnable arm port s
  | .armEnable arm => Sys2Proof.Machine.execArmEnable arm s
  | .armDisable arm => Sys2Proof.Machine.execArmDisable arm s
  | .busEnable => Sys2Proof.Machine.execBusEnable s
  | .busDisable => Sys2Proof.Machine.execBusDisable s
  | .busRecover => Sys2Proof.Machine.execBusRecover s
  | .channelClear channel => Sys2Proof.Machine.execChannelClear channel s
  | .stopRelease arm => Sys2Proof.Machine.execStopRelease arm s
  | .changeAbortCell arm => Sys2Proof.Machine.execChangeAbortCell arm s
  | .changeResolve arm seated drop pick => Sys2Proof.Machine.execChangeResolve arm seated drop pick s
  | .bayClear arm => Sys2Proof.Machine.execBayClear arm s
  | .announceClear => Sys2Proof.Machine.execAnnounceClear s
  | .reset => Sys2Proof.Machine.execReset s
  | .readProbe probe => Sys2Proof.Machine.execReadProbe probe s
  | .readPort arm port => Sys2Proof.Machine.execReadPort arm port s
  | .readNode node => Sys2Proof.Machine.execReadNode node s
  | .readAnnounce => Sys2Proof.Machine.execReadAnnounce s
  | .readChannel channel => Sys2Proof.Machine.execReadChannel channel s
  | .readGroup group => Sys2Proof.Machine.execReadGroup group s
  | .readBays => Sys2Proof.Machine.execReadBays s
  | .readArm arm => Sys2Proof.Machine.execReadArm arm s
  | .readMap arm axis first count => Sys2Proof.Machine.execReadMap arm axis first count s
  | .readNotices clear => Sys2Proof.Machine.execReadNotices clear s
  | .readId => Sys2Proof.Machine.execReadId s
  | .readFrame words => Sys2Proof.Machine.execReadFrame words s
  | .cellFrameError reason code words => Sys2Proof.Machine.execCellFrameError reason code words s
  | .powerOn => Sys2Proof.Machine.execPowerOn s
  | .resetInputAssert => Sys2Proof.Machine.execResetInputAssert s
  | .resetInputRelease => Sys2Proof.Machine.execResetInputRelease s
  | .attentionHoldExpiry => Sys2Proof.Machine.execAttentionHoldExpiry s
  | .hello link letter tags code => Sys2Proof.Machine.execHello link letter tags code s
  | .ready link => Sys2Proof.Machine.execReady link s
  | .armFrameDiscarded link => Sys2Proof.Machine.execArmFrameDiscarded link s
  | .listenTimerExpiry link => Sys2Proof.Machine.execListenTimerExpiry link s
  | .agreeTimerExpiry link => Sys2Proof.Machine.execAgreeTimerExpiry link s
  | .silenceTimerExpiry link => Sys2Proof.Machine.execSilenceTimerExpiry link s
  | .requestArrival link request => Sys2Proof.Machine.execRequestArrival link request s
  | .frameSent link => Sys2Proof.Machine.execFrameSent link s
  | .correct link tag kind tip u => Sys2Proof.Machine.execCorrect link tag kind tip u s
  | .check link tag target => Sys2Proof.Machine.execCheck link tag target s
  | .reserve link tag first last wait => Sys2Proof.Machine.execReserve link tag first last wait s
  | .release link tag first last => Sys2Proof.Machine.execRelease link tag first last s
  | .changeBegin link tag target => Sys2Proof.Machine.execChangeBegin link tag target s
  | .changeAbortArm link tag => Sys2Proof.Machine.execChangeAbortArm link tag s
  | .reportStaged link tag => Sys2Proof.Machine.execReportStaged link tag s
  | .reportId link tag code => Sys2Proof.Machine.execReportId link tag code s
  | .reportHit link tag => Sys2Proof.Machine.execReportHit link tag s
  | .heartbeat link tag => Sys2Proof.Machine.execHeartbeat link tag s
  | .waitTimerExpiry link => Sys2Proof.Machine.execWaitTimerExpiry link s
  | .stepTimerExpiry link => Sys2Proof.Machine.execStepTimerExpiry link s
  | .engageTimerExpiry link => Sys2Proof.Machine.execEngageTimerExpiry link s
  | .portLineChange link port line level => Sys2Proof.Machine.execPortLineChange link port line level s
  | .filterExpiry link port line => Sys2Proof.Machine.execFilterExpiry link port line s
  | .maskEnd link => Sys2Proof.Machine.execMaskEnd link s
  | .pollPeriodExpiry => Sys2Proof.Machine.execPollPeriodExpiry s
  | .pollSent => Sys2Proof.Machine.execPollSent s
  | .reply frame => Sys2Proof.Machine.execReply frame s
  | .replyTimeout => Sys2Proof.Machine.execReplyTimeout s
  | .slotEnd => Sys2Proof.Machine.execSlotEnd s
  | .announce checkOk address channels kind => Sys2Proof.Machine.execAnnounce checkOk address channels kind s
  | .lineStuck => Sys2Proof.Machine.execLineStuck s
  | .busLineLevelChange driven => Sys2Proof.Machine.execBusLineLevelChange driven s
  | .releasedTimerExpiry => Sys2Proof.Machine.execReleasedTimerExpiry s
  | .staleTimerExpiry channel => Sys2Proof.Machine.execStaleTimerExpiry channel s
  | .holdTimerExpiry group => Sys2Proof.Machine.execHoldTimerExpiry group s

end Sys2Proof.Machine
end

