-- ==== Sys2Proof/Machine/Tick.lean ====
section
/-! DEFINITION. What the part does by itself when no command waits (log entry 2, DESIGN CHOICE): one millisecond passes (R1), with
the timer expiries that this brings. -/

namespace Sys2Proof.Machine

/-! ### One millisecond (R1, R196) -/

/-- A running timer loses one millisecond. -/
def Timer.elapse : Timer → Timer
  | none => none
  | some n => some (n - 1)

/-- A timer has run out. -/
def Timer.isDue (t : Timer) : Bool := t == some 0

def Port.elapse (p : Port) : Port :=
  { p with occupiedFilter := Timer.elapse p.occupiedFilter, headFilter := Timer.elapse p.headFilter }

def Rack.elapse (r : Rack) : Rack := { r with ports := r.ports.map Port.elapse, maskTimer := Timer.elapse r.maskTimer }

def Sequencer.elapse (q : Sequencer) : Sequencer :=
  { q with stepTimer := Timer.elapse q.stepTimer, engageTimer := Timer.elapse q.engageTimer }

def WaitSlot.elapse (w : WaitSlot) : WaitSlot := { w with timer := Timer.elapse w.timer }

def ArmPort.elapse (p : ArmPort) : ArmPort :=
  { p with phaseTimer := Timer.elapse p.phaseTimer, silenceTimer := Timer.elapse p.silenceTimer }

def Arm.elapse (m : Arm) : Arm :=
  { m with rack := m.rack.elapse, seq := m.seq.elapse, wait := m.wait.map WaitSlot.elapse, port := m.port.elapse }

def Cell.elapse (c : Cell) : Cell := { c with ms := c.ms + 1, armA := c.armA.elapse, armB := c.armB.elapse }

def Bus.elapse (b : Bus) : Bus :=
  { b with
    periodTimer := Timer.elapse b.periodTimer
    releasedTimer := Timer.elapse b.releasedTimer
    replyTimer := Timer.elapse b.replyTimer
    slotTimer := Timer.elapse b.slotTimer
    stuckTimer := Timer.elapse b.stuckTimer }

def Temperature.elapse (t : Temperature) : Temperature :=
  { t with
    channels := t.channels.map (fun c => { c with staleTimer := Timer.elapse c.staleTimer })
    groups := t.groups.map (fun g => { g with holdTimer := Timer.elapse g.holdTimer }) }

/-- The millisecond count advances and every running timer loses one millisecond. -/
def Device.elapse (d : Device) : Device :=
  { d with
    link := { d.link with hold := Timer.elapse d.link.hold }
    bus := d.bus.elapse
    temp := d.temp.elapse
    cell := d.cell.elapse }

/-! ### The timers by name -/

/-- The timers of the part. -/
inductive TimerId
  | attention
  | pollPeriod | released | reply | slot | stuck
  | stale (channel : Nat)
  | hold (group : Nat)
  | phase (arm : ArmId)
  | silence (arm : ArmId)
  | wait (arm : ArmId)
  | step (arm : ArmId)
  | engage (arm : ArmId)
  | mask (arm : ArmId)
  | filter (arm : ArmId) (port : Nat) (line : PortLine)
deriving DecidableEq, Repr

/-- The present value of a timer. -/
def Device.timer (d : Device) : TimerId → Timer
  | .attention => d.link.hold
  | .pollPeriod => d.bus.periodTimer
  | .released => d.bus.releasedTimer
  | .reply => d.bus.replyTimer
  | .slot => d.bus.slotTimer
  | .stuck => d.bus.stuckTimer
  | .stale k => (d.channel k).staleTimer
  | .hold g => (d.group g).holdTimer
  | .phase a => (d.cell.arm a).port.phaseTimer
  | .silence a => (d.cell.arm a).port.silenceTimer
  | .wait a => (d.cell.arm a).wait.bind (fun w => w.timer)
  | .step a => (d.cell.arm a).seq.stepTimer
  | .engage a => (d.cell.arm a).seq.engageTimer
  | .mask a => (d.cell.arm a).rack.maskTimer
  | .filter a k line => (d.cell.port? a k).bind (fun p => p.filter line)

/-- The expiry of a timer: the same event as its row of the table. -/
def Device.expire (d : Device) : TimerId → Device
  | .attention => { d with link := d.link.holdExpiry }
  | .pollPeriod => d.pollPeriodExpiry
  | .released => d.onBus Bus.releasedExpiry
  | .reply => d.replyTimeout
  | .slot => d.slotEnd
  | .stuck => d.lineStuck
  | .stale k => d.staleExpiry k
  | .hold g => d.holdExpiry g
  | .phase a => d.onCell (fun c => (c.listenExpiry a).agreeExpiry a)
  | .silence a => d.onCell (fun c => c.silenceExpiry a)
  | .wait a => d.onCell (fun c => c.waitExpiry a)
  | .step a => d.onCell (fun c => c.stepTimerExpiry a)
  | .engage a => d.onCell (fun c => c.engageTimerExpiry a)
  | .mask a => d.onCell (fun c => c.maskEnd a)
  | .filter a k line => d.onCell (fun c => c.filterExpiry a k line)

/-- The timers of one arm. -/
def armTimers (a : ArmId) (ports : Nat) : List TimerId :=
  [.phase a, .silence a, .wait a, .step a, .engage a, .mask a] ++ (linesInOrder ports).map (fun x => TimerId.filter a x.1 x.2)

/-- Every timer of the part. -/
def Device.timers (d : Device) : List TimerId :=
  [.attention, .pollPeriod, .released, .reply, .slot, .stuck] ++ (List.range 32).map (fun k => TimerId.stale (k + 1)) ++
    (List.range 12).map (fun g => TimerId.hold (g + 1)) ++ armTimers .armA d.cell.armA.rack.ports.length ++
    armTimers .armB d.cell.armB.rack.ports.length

/-- A timer that is still due expires; one that an earlier expiry of the instant has stopped or restarted does not (R1). -/
def Device.fire (d : Device) (t : TimerId) : Device := if Timer.isDue (d.timer t) then d.expire t else d

/-- One millisecond: time elapses, and the timers that have run out expire in a free order (R1, log entries 2 and 3). -/
def Device.tick (d : Device) : Device :=
  let d1 := d.elapse
  match d1.timers.filter (fun t => Timer.isDue (d1.timer t)) with
  | [] => d1
  | [t] => d1.fire t
  | l => ((freeOrder d1.freeCount l).foldl Device.fire d1.countFree)

/-- What the part does on its own: nothing while held in reset, otherwise a millisecond passes (log entry 2). -/
def Device.idle (d : Device) : Device := if d.link.held then d else d.tick

end Sys2Proof.Machine
end

