-- ==== Sys2Proof/Machine/Step.lean ====
section
/-! DEFINITION. A step of the machine: the command at the front of the queue, or what the part does on its own. -/

namespace Sys2Proof.Machine

/-- The command at the front of the queue is executed on the rest; on an empty queue the part acts on its own (log entry 2). -/
def step (s : State) : Host.Outcome State Fault Refusal :=
  match s.pending with
  | [] => .next { s with dev := s.dev.idle }
  | c :: rest => exec c { s with pending := rest }

/-- The command that a word spells is put at the front of the queue; unchanged where the word spells none. -/
def State.withFetchWord (s : State) (nbits w : Nat) : State :=
  match decodeTableWord nbits w with
  | none => s
  | some c => { s with pending := c :: s.pending }

end Sys2Proof.Machine
end

