-- ==== Sys2Proof/Machine/Wire.lean ====
section
/-! DEFINITION. The three wires (chapter 11): the judging of a cell link frame and the words of a command (R192, R202), the
bytes of arm link frames in both directions (R180, R204), and sensor bus frames (R205). These functions stand beside the step
(log entry 26): they say which command of the table a frame on a wire is, and which bytes a frame of a transmit list is. -/

namespace Sys2Proof.Machine

/-! ### Reading fields of a command frame (R202) -/

/-- A reader takes a value from the front of the words. -/
abbrev Reader (α : Type) := List Word → Option (α × List Word)

/-- A one-word field of a range within 0..65,535. -/
def readWord : Reader Nat
  | w :: ws => some (w.toNat, ws)
  | [] => none

/-- A one-word signed field. -/
def readSigned : Reader Int
  | w :: ws => some (w.toInt, ws)
  | [] => none

/-- A two-word field, high word first. -/
def readLong : Reader Nat
  | h :: l :: ws => some (h.toNat * 65536 + l.toNat, ws)
  | _ => none

/-- A two-word signed field. -/
def readPosition : Reader Int
  | h :: l :: ws => some (h.toInt * 65536 + l.toNat, ws)
  | _ => none

def readPoint : Reader Point := fun ws => do
  let (x, ws) ← readPosition ws
  let (y, ws) ← readPosition ws
  let (z, ws) ← readPosition ws
  some (⟨x, y, z⟩, ws)

/-- A box: lower X, upper X, lower Y, upper Y, lower Z, upper Z. -/
def readBox : Reader Box := fun ws => do
  let (lx, ws) ← readPosition ws
  let (hx, ws) ← readPosition ws
  let (ly, ws) ← readPosition ws
  let (hy, ws) ← readPosition ws
  let (lz, ws) ← readPosition ws
  let (hz, ws) ← readPosition ws
  some (⟨⟨lx, ly, lz⟩, ⟨hx, hy, hz⟩⟩, ws)

def readScale : Reader Scale := fun ws => do
  let (r, ws) ← readPosition ws
  let (a, ws) ← readWord ws
  some (⟨r, a⟩, ws)

def readNodeEntry : Reader MapNode := fun ws => do
  let (a, ws) ← readSigned ws
  let (b, ws) ← readSigned ws
  let (c, ws) ← readSigned ws
  let (d, ws) ← readSigned ws
  some (⟨a, b, c, d⟩, ws)

def readTip : Reader TipGeometry := fun ws => do
  let (o, ws) ← readPoint ws
  let (r, ws) ← readPosition ws
  some (⟨o, r⟩, ws)

def readGroups : Reader ArmGroups := fun ws => do
  let (x, ws) ← readWord ws
  let (y, ws) ← readWord ws
  let (z, ws) ← readWord ws
  let (e, ws) ← readWord ws
  some (⟨x, y, z, e⟩, ws)

/-- `n` entries of a list. -/
def readMany {α : Type} (r : Reader α) : Nat → Reader (List α)
  | 0 => fun ws => some ([], ws)
  | n + 1 => fun ws => do
    let (x, ws) ← r ws
    let (xs, ws) ← readMany r n ws
    some (x :: xs, ws)

/-- A list preceded by its list count word. -/
def readList {α : Type} (r : Reader α) : Reader (List α) := fun ws => do
  let (n, ws) ← readWord ws
  readMany r n ws

def readSettings : Reader ArmSettings := fun ws => do
  let (carriage, ws) ← readBox ws
  let (volume, ws) ← readBox ws
  let (unknownBox, ws) ← readBox ws
  let (staging, ws) ← readBox ws
  let (sx, ws) ← readScale ws
  let (sy, ws) ← readScale ws
  let (sz, ws) ← readScale ws
  let (bayOffset, ws) ← readPosition ws
  let (safeDepth, ws) ← readPosition ws
  let (margin, ws) ← readPosition ws
  let (silence, ws) ← readWord ws
  some (⟨carriage, volume, unknownBox, staging, sx, sy, sz, bayOffset, safeDepth, margin, silence⟩, ws)

def readParams : Reader PortParams := fun ws => do
  let (filterTime, ws) ← readWord ws
  let (maskTime, ws) ← readWord ws
  let (l1, ws) ← readWord ws
  let (l2, ws) ← readWord ws
  let (l3, ws) ← readWord ws
  let (l4, ws) ← readWord ws
  let (l5, ws) ← readWord ws
  let (l6, ws) ← readWord ws
  let (l7, ws) ← readWord ws
  let (l8, ws) ← readWord ws
  let (engage, ws) ← readWord ws
  let (learning, ws) ← readWord ws
  let (slow, ws) ← readWord ws
  some (⟨filterTime, maskTime, ⟨[l1, l2, l3, l4, l5, l6, l7, l8], rfl⟩, engage, learning, slow⟩, ws)

/-! ### Configuration, map and probe commands -/

/-- The configuration commands (matter 1). -/
def parseConfiguration (code : Nat) (ws : List Word) : Option (Instr × List Word) :=
  match code with
  | 257 => do
    let (a, ws) ← readWord ws
    let (s, ws) ← readSettings ws
    some (.armConfig a s, ws)
  | 258 => do
    let (a, ws) ← readWord ws
    let (n, ws) ← readWord ws
    let (b, ws) ← readList readBox ws
    let (p, ws) ← readParams ws
    some (.portConfig a n b p, ws)
  | 259 => do
    let (n, ws) ← readWord ws
    let (o, ws) ← readPosition ws
    let (w, ws) ← readPosition ws
    some (.bayConfig n o w, ws)
  | 260 => do
    let (g, ws) ← readWord ws
    let (a, ws) ← readWord ws
    let (da, ws) ← readPoint ws
    let (db, ws) ← readPoint ws
    some (.workpieceSet g a da db, ws)
  | 261 => do
    let (p, ws) ← readWord ws
    let (t, ws) ← readWord ws
    let (s, ws) ← readWord ws
    let (l, ws) ← readWord ws
    let (r, ws) ← readWord ws
    some (.busSet p t s l r, ws)
  | 262 => do
    let (n, ws) ← readWord ws
    let (a, ws) ← readWord ws
    let (c, ws) ← readWord ws
    some (.nodeAdd n a c, ws)
  | 263 => do
    let (n, ws) ← readWord ws
    some (.nodeRemove n, ws)
  | 264 => do
    let (c, ws) ← readWord ws
    let (n, ws) ← readWord ws
    let (i, ws) ← readWord ws
    let (g, ws) ← readWord ws
    let (w, ws) ← readWord ws
    let (s, ws) ← readSigned ws
    let (f, ws) ← readWord ws
    let (l, ws) ← readWord ws
    let (r, ws) ← readWord ws
    let (t, ws) ← readWord ws
    some (.channelSet c n i g w s f l r t, ws)
  | 265 => do
    let (c, ws) ← readWord ws
    some (.channelRemove c, ws)
  | 266 => do
    let (g, ws) ← readWord ws
    let (h, ws) ← readLong ws
    let (s, ws) ← readSigned ws
    some (.groupSet g h s, ws)
  | 267 => do
    let (w, ws) ← readSigned ws
    let (ga, ws) ← readGroups ws
    let (gb, ws) ← readGroups ws
    some (.tempSet w ga gb, ws)
  | _ => none

/-- The map commands (matter 2). -/
def parseMaps (code : Nat) (ws : List Word) : Option (Instr × List Word) :=
  match code with
  | 513 => do
    let (a, ws) ← readWord ws
    let (k, ws) ← readWord ws
    let (t, ws) ← readLong ws
    let (o, ws) ← readPosition ws
    let (s, ws) ← readPosition ws
    let (n, ws) ← readWord ws
    some (.mapOpen a k t o s n, ws)
  | 514 => do
    let (a, ws) ← readWord ws
    let (k, ws) ← readWord ws
    let (f, ws) ← readWord ws
    let (e, ws) ← readList readNodeEntry ws
    some (.mapNodes a k f e, ws)
  | 515 => do
    let (a, ws) ← readWord ws
    let (k, ws) ← readWord ws
    some (.mapClose a k, ws)
  | 516 => do
    let (a, ws) ← readWord ws
    let (k, ws) ← readWord ws
    some (.mapClear a k, ws)
  | _ => none

/-- The probe commands (matter 3). -/
def parseProbes (code : Nat) (ws : List Word) : Option (Instr × List Word) :=
  match code with
  | 769 => do
    let (p, ws) ← readWord ws
    let (c, ws) ← readWord ws
    let (h, ws) ← readWord ws
    let (n, ws) ← readWord ws
    let (l, ws) ← readWord ws
    let (t, ws) ← readList readTip ws
    some (.probeDefine p c h n l t, ws)
  | 770 => do
    let (p, ws) ← readWord ws
    let (t, ws) ← readWord ws
    let (o, ws) ← readPoint ws
    let (r, ws) ← readPosition ws
    some (.tipQualify p t o r, ws)
  | 771 => do
    let (p, ws) ← readWord ws
    some (.probeRetire p, ws)
  | 772 => do
    let (a, ws) ← readWord ws
    let (k, ws) ← readWord ws
    let (p, ws) ← readWord ws
    some (.expect a k p, ws)
  | 773 => do
    let (a, ws) ← readWord ws
    let (k, ws) ← readWord ws
    some (.portDisable a k, ws)
  | 774 => do
    let (a, ws) ← readWord ws
    let (k, ws) ← readWord ws
    some (.portEnable a k, ws)
  | _ => none

/-- The control commands (matter 4). -/
def parseControl (code : Nat) (ws : List Word) : Option (Instr × List Word) :=
  match code with
  | 1025 => do
    let (a, ws) ← readWord ws
    some (.armEnable a, ws)
  | 1026 => do
    let (a, ws) ← readWord ws
    some (.armDisable a, ws)
  | 1027 => some (.busEnable, ws)
  | 1028 => some (.busDisable, ws)
  | 1029 => some (.busRecover, ws)
  | 1030 => do
    let (c, ws) ← readWord ws
    some (.channelClear c, ws)
  | 1031 => do
    let (a, ws) ← readWord ws
    some (.stopRelease a, ws)
  | 1032 => do
    let (a, ws) ← readWord ws
    some (.changeAbortCell a, ws)
  | 1033 => do
    let (a, ws) ← readWord ws
    let (s, ws) ← readWord ws
    let (d, ws) ← readWord ws
    let (p, ws) ← readWord ws
    some (.changeResolve a s d p, ws)
  | 1034 => do
    let (a, ws) ← readWord ws
    some (.bayClear a, ws)
  | 1035 => some (.announceClear, ws)
  | 1036 => some (.reset, ws)
  | _ => none

/-- The reads (matter 5). -/
def parseReads (code : Nat) (ws : List Word) : Option (Instr × List Word) :=
  match code with
  | 1281 => do
    let (p, ws) ← readWord ws
    some (.readProbe p, ws)
  | 1282 => do
    let (a, ws) ← readWord ws
    let (k, ws) ← readWord ws
    some (.readPort a k, ws)
  | 1283 => do
    let (n, ws) ← readWord ws
    some (.readNode n, ws)
  | 1284 => some (.readAnnounce, ws)
  | 1285 => do
    let (c, ws) ← readWord ws
    some (.readChannel c, ws)
  | 1286 => do
    let (g, ws) ← readWord ws
    some (.readGroup g, ws)
  | 1287 => some (.readBays, ws)
  | 1288 => do
    let (a, ws) ← readWord ws
    some (.readArm a, ws)
  | 1289 => do
    let (a, ws) ← readWord ws
    let (k, ws) ← readWord ws
    let (f, ws) ← readWord ws
    let (n, ws) ← readWord ws
    some (.readMap a k f n, ws)
  | 1290 => do
    let (c, ws) ← readWord ws
    some (.readNotices c, ws)
  | 1291 => some (.readId, ws)
  | _ => none

/-- The fields after a command code: the code is 256 times the matter number and the position within the matter (R202). -/
def parseFields (code : Nat) (ws : List Word) : Option (Instr × List Word) :=
  match code / 256 with
  | 1 => parseConfiguration code ws
  | 2 => parseMaps code ws
  | 3 => parseProbes code ws
  | 4 => parseControl code ws
  | 5 => parseReads code ws
  | _ => none

/-- The check word: the sum of the words before it, inverted (R202). -/
def checkWord (ws : List Word) : Word := ~~~ (ws.foldl (· + ·) 0)

/-- A frame of two words or more whose first word is a command's code and whose length is that command's (R192, test 2). The
last word is not a field. -/
def frameCommand (ws : List Word) : Option Instr :=
  match ws with
  | c :: d :: rest =>
    match parseFields c.toNat (d :: rest).dropLast with
    | some (i, []) => some i
    | _ => none
  | _ => none

/-! ### Bits and words (R193, R202) -/

/-- The bits of a word in the order in which they are clocked, most significant first (R202). -/
def wordBits (w : Word) : List Bool := (List.range 16).map (fun i => w.getMsbD i)

/-- The word of sixteen clocked bits, most significant first (R202). -/
def bitsWord (bs : List Bool) : Word := BitVec.ofNat 16 (bs.foldl (fun n b => 2 * n + b.toNat) 0)

/-- The first `n` whole words of clocked bits. -/
def wholeWords : Nat → List Bool → List Word
  | 0, _ => []
  | n + 1, bs => bitsWord (bs.take 16) :: wholeWords n (bs.drop 16)

/-- The bits that the part clocks out in a frame of `n` bits: a word that the frame does not clock whole stays in the queue (R193). -/
def CellLink.bitsOut (l : CellLink) (n : Nat) : List Bool := ((l.wordsOut (n / 16 + 1)).flatMap wordBits).take n

/-- A frame of the cell link at its end event: `bits` clocked, of which `ws` are the whole words (R192). None: disregarded. -/
def judgeCellFrame (bits : Nat) (ws : List Word) : Option Instr :=
  if bits = 0 then none
  else if bits % 16 = 0 ∧ ws.all (fun w => w == 65535) then some (.readFrame ws.length)
  else
    let code := match ws with
      | [] => 0
      | w :: _ => w.toNat
    if bits % 16 ≠ 0 then some (.cellFrameError .bits code ws.length)
    else
      match frameCommand ws with
      | none => some (.cellFrameError .length code ws.length)
      | some i =>
        if ws.getLast? = some (checkWord ws.dropLast) then some i else some (.cellFrameError .check code ws.length)

/-- A frame of the cell link by its clocked bits (R192, R202). -/
def judgeCellBits (bits : List Bool) : Option Instr := judgeCellFrame bits.length (wholeWords (bits.length / 16) bits)

/-! ### The words of a command (R202) -/

def scaleFieldWords (s : Scale) : List Word := word2 s.r ++ word s.alpha

def mapNodeWords (e : MapNode) : List Word := word e.ep ++ word e.es1 ++ word e.es2 ++ word e.ang

def tipFieldWords (t : TipGeometry) : List Word := pointWords t.offset ++ word2 t.radius

def groupFieldWords (g : ArmGroups) : List Word := word g.x ++ word g.y ++ word g.z ++ word g.env

/-- A list with its list count word. -/
def listFieldWords {α : Type} (f : α → List Word) (l : List α) : List Word := word l.length ++ l.flatMap f

def settingsFieldWords (s : ArmSettings) : List Word :=
  boxWords s.carriage ++ boxWords s.volume ++ boxWords s.unknownBox ++ boxWords s.staging ++ scaleFieldWords s.scaleX ++
    scaleFieldWords s.scaleY ++ scaleFieldWords s.scaleZ ++ word2 s.bayOffset ++ word2 s.safeDepth ++ word2 s.margin ++
    word s.silence

def paramsFieldWords (p : PortParams) : List Word :=
  word p.filterTime ++ word p.maskTime ++ p.stepLimits.val.flatMap (fun (t : Nat) => word t) ++ word p.engageTime ++
    word p.learning ++ word p.slowFactor

/-- The code and the fields of a command; none for an event that is no command frame. -/
def commandWords : Instr → Option (Nat × List Word)
  | .armConfig a s => some (257, word a ++ settingsFieldWords s)
  | .portConfig a n b p => some (258, word a ++ word n ++ listFieldWords boxWords b ++ paramsFieldWords p)
  | .bayConfig n o w => some (259, word n ++ word2 o ++ word2 w)
  | .workpieceSet g a da db => some (260, word g ++ word a ++ pointWords da ++ pointWords db)
  | .busSet p t s l r => some (261, word p ++ word t ++ word s ++ word l ++ word r)
  | .nodeAdd n a c => some (262, word n ++ word a ++ word c)
  | .nodeRemove n => some (263, word n)
  | .channelSet c n i g w s f l r t =>
    some (264, word c ++ word n ++ word i ++ word g ++ word w ++ word s ++ word f ++ word l ++ word r ++ word t)
  | .channelRemove c => some (265, word c)
  | .groupSet g h s => some (266, word g ++ word2 h ++ word s)
  | .tempSet w ga gb => some (267, word w ++ groupFieldWords ga ++ groupFieldWords gb)
  | .mapOpen a k t o s n => some (513, word a ++ word k ++ word2 t ++ word2 o ++ word2 s ++ word n)
  | .mapNodes a k f e => some (514, word a ++ word k ++ word f ++ listFieldWords mapNodeWords e)
  | .mapClose a k => some (515, word a ++ word k)
  | .mapClear a k => some (516, word a ++ word k)
  | .probeDefine p c h n l t => some (769, word p ++ word c ++ word h ++ word n ++ word l ++ listFieldWords tipFieldWords t)
  | .tipQualify p t o r => some (770, word p ++ word t ++ pointWords o ++ word2 r)
  | .probeRetire p => some (771, word p)
  | .expect a k p => some (772, word a ++ word k ++ word p)
  | .portDisable a k => some (773, word a ++ word k)
  | .portEnable a k => some (774, word a ++ word k)
  | .armEnable a => some (1025, word a)
  | .armDisable a => some (1026, word a)
  | .busEnable => some (1027, [])
  | .busDisable => some (1028, [])
  | .busRecover => some (1029, [])
  | .channelClear c => some (1030, word c)
  | .stopRelease a => some (1031, word a)
  | .changeAbortCell a => some (1032, word a)
  | .changeResolve a s d p => some (1033, word a ++ word s ++ word d ++ word p)
  | .bayClear a => some (1034, word a)
  | .announceClear => some (1035, [])
  | .reset => some (1036, [])
  | .readProbe p => some (1281, word p)
  | .readPort a k => some (1282, word a ++ word k)
  | .readNode n => some (1283, word n)
  | .readAnnounce => some (1284, [])
  | .readChannel c => some (1285, word c)
  | .readGroup g => some (1286, word g)
  | .readBays => some (1287, [])
  | .readArm a => some (1288, word a)
  | .readMap a k f n => some (1289, word a ++ word k ++ word f ++ word n)
  | .readNotices c => some (1290, word c)
  | .readId => some (1291, [])
  | _ => none

/-- The frame of a command: its code, its fields, its check word (R202). -/
def commandFrame (i : Instr) : Option (List Word) :=
  match commandWords i with
  | none => none
  | some (code, fields) =>
    let ws := BitVec.ofNat 16 code :: fields
    some (ws ++ [checkWord ws])

/-! ### Arm link bytes (R204) -/

/-- A value in one byte. -/
def byte (v : Nat) : List Byte := [BitVec.ofNat 8 v]

/-- A value in two bytes, most significant first. -/
def byte2 (v : Nat) : List Byte := [BitVec.ofNat 8 (v / 256), BitVec.ofNat 8 v]

/-- A value in four bytes, most significant first, in two's complement. -/
def byte4 (v : Int) : List Byte :=
  [BitVec.ofInt 8 (v / 16777216), BitVec.ofInt 8 (v / 65536), BitVec.ofInt 8 (v / 256), BitVec.ofInt 8 v]

def pointBytes (p : Point) : List Byte := byte4 p.x ++ byte4 p.y ++ byte4 p.z

/-- The two check bytes: the sum, and the sum of its running values (R204). -/
def checkBytes (bs : List Byte) : List Byte :=
  let r := bs.foldl (fun (x : Byte × Byte) b => (x.1 + b, x.2 + (x.1 + b))) (0, 0)
  [r.1, r.2]

/-- A frame: start byte, kind, tag, body length, body, check bytes (R204). -/
def armFrame (kind tag : Nat) (body : List Byte) : List Byte :=
  let bs := byte kind ++ byte tag ++ byte body.length ++ body
  126 :: bs ++ checkBytes bs

/-- The kind of a response with a status and two values: its request's kind plus 128 (R204). -/
def ShortKind.number : ShortKind → Nat
  | .reserve => 146 | .release => 147 | .changeBegin => 148 | .changeAbort => 149
  | .reportStaged => 150 | .reportId => 151 | .reportHit => 152 | .heartbeat => 153

/-- The result numbers of R204. -/
def CheckResult.number : CheckResult → Nat
  | .clear => 0 | .limited => 1 | .blockedStopped => 2 | .blockedRack => 3 | .blockedBay => 4

/-- The clamp mask: bit 0 X, bit 1 Y, bit 2 Z (R204). -/
def CheckAnswer.mask (a : CheckAnswer) : Nat := flagCode a.clampX + 2 * flagCode a.clampY + 4 * flagCode a.clampZ

/-- CHANGE_END: the outcome, then the seated field and 0, or the cause and the step (R204). -/
def changeEndBytes : ChangeOutcome → List Byte
  | .completed seated => byte 0 ++ byte (seatedCode seated) ++ byte 0
  | .aborted cause step => byte 1 ++ byte cause.number ++ byte step.number

/-- The bytes that a frame of a transmit list sends (R190, R204). -/
def txBytes : TxFrame → List Byte
  | .agree tags seated code =>
    armFrame 129 0 (byte4 tags.x ++ byte4 tags.y ++ byte4 tags.z ++ byte (seatedCode seated) ++ byte2 code)
  | .refuse code => armFrame 131 0 (byte Status.tooLarge.number ++ byte2 code)
  | .correctResponse tag status q flags => armFrame 144 tag (byte status.number ++ pointBytes q ++ byte2 flags.bits)
  | .checkResponse tag status a =>
    armFrame 145 tag (byte status.number ++ byte a.result.number ++ pointBytes a.target ++ byte a.mask ++ byte a.causeKind ++
      byte a.number ++ byte a.causeArm)
  | .shortResponse kind tag status first second => armFrame kind.number tag (byte status.number ++ byte first ++ byte second)
  | .grant tag status first last => armFrame 192 tag (byte status.number ++ byte first ++ byte last)
  | .changeStep step latch => armFrame 193 0 (byte step.number ++ byte (flagCode latch))
  | .changeEnd outcome => armFrame 194 0 (changeEndBytes outcome)
  | .stop cause =>
    armFrame 195 0 (byte (stopCauseParts (some cause)).1 ++ byte (stopCauseParts (some cause)).2.1 ++
      byte (stopCauseParts (some cause)).2.2)

/-- An unsigned value of bytes, most significant first. -/
def bytesNat (l : List Byte) : Nat := l.foldl (fun n b => n * 256 + b.toNat) 0

/-- A signed value of four bytes. -/
def bytesInt (l : List Byte) : Int := (BitVec.ofNat 32 (bytesNat l)).toInt

/-- Four bytes of a body from an offset. -/
def bytesAt (body : List Byte) (offset n : Nat) : List Byte := (body.drop offset).take n

/-- A point of three 4-byte values from an offset of a body. -/
def pointAt (body : List Byte) (offset : Nat) : Point :=
  ⟨bytesInt (bytesAt body offset 4), bytesInt (bytesAt body (offset + 4) 4), bytesInt (bytesAt body (offset + 8) 4)⟩

/-- One byte of a body. -/
def byteAt (body : List Byte) (offset : Nat) : Nat := bytesNat (bytesAt body offset 1)

/-- The body length that a kind to the part has (R204). -/
def kindLength : Nat → Option Nat
  | 1 => some 15 | 2 => some 0 | 16 => some 14 | 17 => some 12 | 18 => some 4 | 19 => some 2
  | 20 => some 1 | 21 => some 0 | 22 => some 0 | 23 => some 2 | 24 => some 0 | 25 => some 0
  | _ => none

/-! ### Framing of a byte stream (R204, R205) -/

/-- The frames of a stream of bytes and gaps: `none` is a gap of 1 ms or more. `whole` says when the bytes since the start byte make a
whole frame, `frame` holds the bytes of the frame in progress. Where a start byte is awaited any other byte is skipped; a gap ends
a frame in progress (R204). -/
def framesOf (whole : List Byte → Bool) : List Byte → List (Option Byte) → List (List Byte)
  | _, [] => []
  | [], none :: rest => framesOf whole [] rest
  | b :: bs, none :: rest => (b :: bs) :: framesOf whole [] rest
  | [], some x :: rest => if x = 126 then framesOf whole [x] rest else framesOf whole [] rest
  | b :: bs, some x :: rest =>
    if whole (b :: bs ++ [x]) then (b :: bs ++ [x]) :: framesOf whole [] rest else framesOf whole (b :: bs ++ [x]) rest

/-- The bytes from a start byte make a whole arm link frame: kind, tag, length, body and two check bytes (R204). -/
def armWhole : List Byte → Bool
  | _ :: _ :: _ :: len :: rest => rest.length == len.toNat + 2
  | _ => false

/-- The bytes from a start byte make a whole sensor bus frame of one of the three types (R205). A frame of another type has no stated
length: a gap ends it (log entry 26). -/
def busWhole : List Byte → Bool
  | _ :: 1 :: rest => rest.length == 4
  | _ :: 2 :: _ :: _ :: count :: rest => rest.length == 4 * count.toNat + 2
  | _ :: 3 :: rest => rest.length == 5
  | _ => false

/-- The command that a frame of a known kind is (R180, R204). HELLO and READY carry tag 0; one that carries another tag is taken all
the same (log entry 29, DESIGN CHOICE). -/
def armKind (link : ArmId) (kind tag : Nat) (b : List Byte) : Instr :=
  match kind with
  | 1 => .hello link (byteAt b 0) ⟨bytesNat (bytesAt b 1 4), bytesNat (bytesAt b 5 4), bytesNat (bytesAt b 9 4)⟩
      (bytesNat (bytesAt b 13 2))
  | 2 => .ready link
  | 16 => .requestArrival link (.correct tag (byteAt b 0) (byteAt b 1) (pointAt b 2))
  | 17 => .requestArrival link (.check tag (pointAt b 0))
  | 18 => .requestArrival link (.reserve tag (byteAt b 0) (byteAt b 1) (bytesNat (bytesAt b 2 2)))
  | 19 => .requestArrival link (.release tag (byteAt b 0) (byteAt b 1))
  | 20 => .requestArrival link (.changeBegin tag (byteAt b 0))
  | 21 => .requestArrival link (.changeAbort tag)
  | 22 => .requestArrival link (.reportStaged tag)
  | 23 => .requestArrival link (.reportId tag (bytesNat (bytesAt b 0 2)))
  | 24 => .requestArrival link (.reportHit tag)
  | 25 => .requestArrival link (.heartbeat tag)
  | _ => .armFrameDiscarded link

/-- A frame received on an arm link: its bytes from the start byte to its end, or to the gap that ends it early. A wrong link
check, length or kind discards it (R180, R204). -/
def receiveArmFrame (link : ArmId) (bytes : List Byte) : Instr :=
  match bytes with
  | start :: kind :: tag :: len :: rest =>
    let body := rest.take len.toNat
    if start = 126 ∧ rest.length = len.toNat + 2 ∧ kindLength kind.toNat = some len.toNat ∧
        rest.drop len.toNat = checkBytes (kind :: tag :: len :: body) then
      armKind link kind.toNat tag.toNat body
    else .armFrameDiscarded link
  | _ => .armFrameDiscarded link

/-- The commands that the bytes and gaps received on an arm link are (R180, R204). -/
def armCommands (link : ArmId) (stream : List (Option Byte)) : List Instr :=
  (framesOf armWhole [] stream).map (receiveArmFrame link)

/-! ### Sensor bus bytes (R205) -/

/-- A poll frame (R57, R205). -/
def pollBytes (address attempt : Nat) : List Byte :=
  let bs := byte 1 ++ byte address ++ byte attempt
  126 :: bs ++ checkBytes bs

/-- The entries of a reply, four bytes each. -/
def entriesOf : Nat → List Byte → List Int
  | 0, _ => []
  | n + 1, bs => bytesInt (bs.take 4) :: entriesOf n (bs.drop 4)

/-- The bytes after a start byte of a frame whose check value is right: its two check bytes fit the bytes before them, and a gap has
not ended it early (R205). A frame of a type without a stated length is judged by its last two bytes (log entry 26). -/
def busCheckOk (bytes rest : List Byte) : Bool :=
  decide (3 ≤ rest.length) && rest.drop (rest.length - 2) == checkBytes (rest.take (rest.length - 2)) &&
    match rest with
    | 1 :: _ | 2 :: _ | 3 :: _ => busWhole bytes
    | _ => true

/-- A frame received on the sensor bus, as REPLY carries it: a check value that does not fit, a wrong entry count and an early
end all give a wrong check value (R205). Without a start byte there is no frame: the bytes are skipped. -/
def receiveBusFrame (bytes : List Byte) : Option BusFrame :=
  match bytes with
  | [] => none
  | start :: rest =>
    if start ≠ 126 then none
    else
      match rest with
      | type :: address :: attempt :: count :: entries =>
        some ⟨busCheckOk bytes rest, type.toNat, address.toNat, attempt.toNat,
          if type = 2 then entriesOf count.toNat entries else []⟩
      | type :: _ => some ⟨busCheckOk bytes rest, type.toNat, 0, 0, []⟩
      | [] => some ⟨false, 0, 0, 0, []⟩

/-- The command that a frame received on the sensor bus is: an announce in an open slot, a frame that may be a reply otherwise
(R57, R61, R62, R205). A frame of another type or of another length in a slot gives none. -/
def receiveOnBus (inSlot : Bool) (bytes : List Byte) : Option Instr :=
  if inSlot then
    match bytes with
    | [126, 3, address, channels, kind, c1, c2] =>
      some (.announce (decide ([c1, c2] = checkBytes [3, address, channels, kind])) address.toNat channels.toNat kind.toNat)
    | _ => none
  else (receiveBusFrame bytes).map Instr.reply

/-- The commands that the bytes and gaps received on the sensor bus are, in an open slot or outside one (R57, R61, R205). -/
def busCommands (inSlot : Bool) (stream : List (Option Byte)) : List Instr :=
  (framesOf busWhole [] stream).filterMap (receiveOnBus inSlot)

end Sys2Proof.Machine
end

