-- ==== Sys2Proof/Safety.lean ====
section
/-! DEFINITION. The vocabulary of the statements about the part: when a command frame is served and what it leaves on the cell
link (R193, R194, R202), when a request is served (R188), the rack boxes that the sequencer's state opens and the exit set that it
leaves (R145, R146), and the invariants that every step keeps. -/

namespace Sys2Proof.Machine

/-! ### Commands of the cell link -/

/-- A command frame of `words` words is handed on and served: the part is not held in reset, and when the words of the frame have
been clocked out at least 256 of the 1,024 words of the output queue are free (R193, R194, R201). -/
def State.takes (s : State) (words : Nat) : Prop :=
  s.dev.link.held = false ∧ s.dev.link.queue.length - words + 256 ≤ 1024

/-- The state after a served command of `words` words: the part `d`, its cell link being that of `s` with the words of the frame
clocked out and the whole response appended: the code, the status number with the overflow mark in bit 15, the length, the body;
and the mark cleared (R193, R194, R202). -/
def State.answered (s : State) (code words status : Nat) (body : List Word) (d : Device) : State :=
  { s with
    dev := { d with
      link := { d.link with
        queue := s.dev.link.queue.drop words ++
          ([BitVec.ofNat 16 code, BitVec.ofNat 16 (status + if s.dev.link.overflow then 32768 else 0),
            BitVec.ofNat 16 (3 + body.length)] ++ body)
        overflow := false } } }

/-- The part with its arms, probes, bays and notices changed. -/
def State.withCell (s : State) (c : Cell) : State := { s with dev := { s.dev with cell := c } }

/-- The part with its bus record changed. -/
def State.withBus (s : State) (b : Bus) : State := { s with dev := { s.dev with bus := b } }

/-! ### Requests of an arm link -/

/-- Request `r` of arm `a` may be served now in RUN: the part is not held, the arm runs, at most 12 frames wait, and the request
stands at the head of the queue, or arrives on an empty queue (R188). -/
def State.serves (s : State) (a : ArmId) (r : Request) : Prop :=
  s.dev.link.held = false ∧ (s.dev.cell.arm a).port.mode = .run ∧ (s.dev.cell.arm a).port.transmit.length ≤ 12 ∧
    ((s.dev.cell.arm a).port.queue = [] ∨ ∃ rest, (s.dev.cell.arm a).port.queue = r :: rest)

/-- The arms, probes, bays and notices as the service of a request finds them: the head of the queue is taken; a request that
arrives on an empty queue restarts the silence timer (R186, R188). -/
def State.atService (s : State) (a : ArmId) : Cell :=
  s.dev.cell.modArm a (fun m =>
    match m.port.queue with
    | [] => { m with port := { m.port with silenceTimer := some m.settings.silence } }
    | _ :: rest => { m with port := { m.port with queue := rest } })

/-! ### Rack boxes -/

/-- The sequencer's state opens rack box `b` to its arm: the table of R145. -/
def SeqState.opensBox (b : Nat) : SeqState → Prop
  | .idle => False
  | .cycle step p | .changeFault _ step p =>
    b = 0 ∨
      match step with
      | .stageIn | .stageOut => False
      | .dropDock | .dropRelease | .dropDepart => p.drop = some b
      | .pickDock | .pickEngage | .pickDepart => p.pick = some b

/-- A position lies inside rack box `b` of an arm: box 0 is the staging box, box `k` the approach box of port `k` (R2, R141). -/
def Arm.inBox (m : Arm) (b : Nat) (u : Point) : Prop :=
  ∃ box : Box, (if b = 0 then some m.settings.staging else (nth m.rack.ports b).map (fun y => y.box)) = some box ∧
    box.lo.x ≤ u.x ∧ u.x ≤ box.hi.x ∧ box.lo.y ≤ u.y ∧ u.y ≤ box.hi.y ∧ box.lo.z ≤ u.z ∧ u.z ≤ box.hi.z

/-- The exit set `exits` of an arm whose sequencer leaves its state for `st`: a box that the old state opened and the new one does not
joins it if the last sample lies inside (R146). -/
def Arm.exitsInto (m : Arm) (st : SeqState) (exits : List Nat) : Prop :=
  ∀ b, b ∈ exits ↔
    b ∈ m.exitSet ∨ (m.seq.state.opensBox b ∧ ¬st.opensBox b ∧ ∃ u, m.lastSample = some u ∧ m.inBox b u)

/-! ### Invariants -/

/-- Outside RUN the bus is still: the phase is BETWEEN, nothing is pending or awaited, both announce sets are empty (R50, R65). -/
def Bus.quiet (b : Bus) : Prop :=
  b.state ≠ .run →
    b.phase = .between ∧ b.startPending = false ∧ b.previousSlot = [] ∧ b.presentSlot = [] ∧ b.sending = false ∧
      b.replyTimer = none ∧ b.slotTimer = none ∧ b.stuckTimer = none

/-- A map of the arm is LOADING only while the arm is OFF (R33, R43). -/
def Arm.loadsOnlyOff (m : Arm) : Prop := m.maps.anyLoading = true → m.port.mode = .off

/-- An arm that is not RUN has no wait slot, no change in CYCLE, no last sample and an empty exit set; an OFF arm has an empty
request queue; a phase stands only while the arm is STARTING (R144, R146, R165, R177, R187). -/
def Arm.restsOutsideRun (m : Arm) : Prop :=
  (m.port.mode ≠ .run →
    m.wait = none ∧ m.seq.state.inCycle = false ∧ m.lastSample = none ∧ m.exitSet = [] ∧ m.port.silenceTimer = none) ∧
  (m.port.mode = .off → m.port.queue = []) ∧
  (m.port.mode = .starting ↔ m.port.phase ≠ none)

/-- The queues of the arm's port hold no more than they have room for, and the dropped count stays within its range (R177). -/
def Arm.withinRoom (m : Arm) : Prop := m.port.queue.length ≤ 4 ∧ m.port.transmit.length ≤ 16 ∧ m.port.dropped ≤ 255

/-- A request waits in the queue only behind a transmit list of more than 12 frames: the head is served at the first event at which
the list holds 12 or fewer (R188). -/
def Arm.servesPromptly (m : Arm) : Prop := m.port.queue = [] ∨ 12 < m.port.transmit.length

/-- What holds of both arms. -/
def State.bothArms (s : State) (P : Arm → Prop) : Prop := P s.dev.cell.armA ∧ P s.dev.cell.armB

end Sys2Proof.Machine
end

