-- ==== Sys2Proof/WellFormed.lean ====
section
/-! DEFINITION. Which commands can be sent at all: every operand fits the field that carries it on its wire (R202, R204, R205), an
event names a line, a channel or a group that exists, and a list is short enough for its count word. exec does not ask for it:
the meanings are total (log entry 10). -/

namespace Sys2Proof

/-- A one-word field of the cell link, and the 2-byte fields of the arm links. -/
def fitsWord (n : Nat) : Bool := decide (n < 65536)

/-- A two-word or 4-byte field without a sign. -/
def fitsLong (n : Nat) : Bool := decide (n < 4294967296)

/-- A two-word or 4-byte signed field: a position or a length. -/
def fitsPosition (v : Int) : Bool := decide (-2147483648 ≤ v) && decide (v ≤ 2147483647)

/-- A one-word signed field: a map component, or a temperature difference (log entry 24). -/
def fitsSigned (v : Int) : Bool := decide (-32768 ≤ v) && decide (v ≤ 32767)

/-- A one-byte field. -/
def fitsByte (n : Nat) : Bool := decide (n < 256)

def Point.fits (p : Point) : Bool := fitsPosition p.x && fitsPosition p.y && fitsPosition p.z

def Box.fits (b : Box) : Bool := b.lo.fits && b.hi.fits

def Scale.fits (s : Scale) : Bool := fitsPosition s.r && fitsWord s.alpha

def ArmSettings.fits (s : ArmSettings) : Bool :=
  s.carriage.fits && s.volume.fits && s.unknownBox.fits && s.staging.fits && s.scaleX.fits && s.scaleY.fits && s.scaleZ.fits &&
    fitsPosition s.bayOffset && fitsPosition s.safeDepth && fitsPosition s.margin && fitsWord s.silence

def PortParams.fits (p : PortParams) : Bool :=
  fitsWord p.filterTime && fitsWord p.maskTime && p.stepLimits.val.all fitsWord && fitsWord p.engageTime && fitsWord p.learning &&
    fitsWord p.slowFactor

def ArmGroups.fits (g : ArmGroups) : Bool := fitsWord g.x && fitsWord g.y && fitsWord g.z && fitsWord g.env

def MapNode.fits (n : MapNode) : Bool := fitsSigned n.ep && fitsSigned n.es1 && fitsSigned n.es2 && fitsSigned n.ang

def TipGeometry.fits (t : TipGeometry) : Bool := t.offset.fits && fitsPosition t.radius

def Tags.fits (t : Tags) : Bool := fitsLong t.x && fitsLong t.y && fitsLong t.z

/-- A list with its count word. -/
def fitsList {α : Type} (f : α → Bool) (l : List α) : Bool := fitsWord l.length && l.all f

/-- A request's fields fit its bytes (R204). -/
def Request.wf : Request → Bool
  | .correct tag kind tip u => fitsByte tag && fitsByte kind && fitsByte tip && u.fits
  | .check tag t => fitsByte tag && t.fits
  | .reserve tag first last wait => fitsByte tag && fitsByte first && fitsByte last && fitsWord wait
  | .release tag first last => fitsByte tag && fitsByte first && fitsByte last
  | .changeBegin tag t => fitsByte tag && fitsByte t
  | .changeAbort tag => fitsByte tag
  | .reportStaged tag => fitsByte tag
  | .reportId tag code => fitsByte tag && fitsWord code
  | .reportHit tag => fitsByte tag
  | .heartbeat tag => fitsByte tag

/-- A received bus frame's fields fit its bytes (R205). -/
def BusFrame.fits (f : BusFrame) : Bool :=
  fitsByte f.type && fitsByte f.address && fitsByte f.attempt && decide (f.entries.length < 256) && f.entries.all fitsPosition

/-- A port whose two lines the part has (R111). -/
def portExists (k : Nat) : Bool := decide (1 ≤ k) && decide (k ≤ 10)

/-- A command can be sent. -/
def Instr.wf : Instr → Bool
  | .armConfig a s => fitsWord a && s.fits
  | .portConfig a n b p => fitsWord a && fitsWord n && fitsList Box.fits b && p.fits
  | .bayConfig n o w => fitsWord n && fitsPosition o && fitsPosition w
  | .workpieceSet g a da db => fitsWord g && fitsWord a && da.fits && db.fits
  | .busSet p t s l r => fitsWord p && fitsWord t && fitsWord s && fitsWord l && fitsWord r
  | .nodeAdd n a c => fitsWord n && fitsWord a && fitsWord c
  | .nodeRemove n => fitsWord n
  | .channelSet c n i g w s f l r t =>
    fitsWord c && fitsWord n && fitsWord i && fitsWord g && fitsWord w && fitsSigned s && fitsWord f && fitsWord l && fitsWord r &&
      fitsWord t
  | .channelRemove c => fitsWord c
  | .groupSet g h s => fitsWord g && fitsLong h && fitsSigned s
  | .tempSet w ga gb => fitsSigned w && ga.fits && gb.fits
  | .mapOpen a k t o s n => fitsWord a && fitsWord k && fitsLong t && fitsPosition o && fitsPosition s && fitsWord n
  | .mapNodes a k f e => fitsWord a && fitsWord k && fitsWord f && fitsList MapNode.fits e
  | .mapClose a k => fitsWord a && fitsWord k
  | .mapClear a k => fitsWord a && fitsWord k
  | .probeDefine p c h n l t =>
    fitsWord p && fitsWord c && fitsWord h && fitsWord n && fitsWord l && fitsList TipGeometry.fits t
  | .tipQualify p t o r => fitsWord p && fitsWord t && o.fits && fitsPosition r
  | .probeRetire p => fitsWord p
  | .expect a k p => fitsWord a && fitsWord k && fitsWord p
  | .portDisable a k => fitsWord a && fitsWord k
  | .portEnable a k => fitsWord a && fitsWord k
  | .armEnable a => fitsWord a
  | .armDisable a => fitsWord a
  | .busEnable => true
  | .busDisable => true
  | .busRecover => true
  | .channelClear c => fitsWord c
  | .stopRelease a => fitsWord a
  | .changeAbortCell a => fitsWord a
  | .changeResolve a s d p => fitsWord a && fitsWord s && fitsWord d && fitsWord p
  | .bayClear a => fitsWord a
  | .announceClear => true
  | .reset => true
  | .readProbe p => fitsWord p
  | .readPort a k => fitsWord a && fitsWord k
  | .readNode n => fitsWord n
  | .readAnnounce => true
  | .readChannel c => fitsWord c
  | .readGroup g => fitsWord g
  | .readBays => true
  | .readArm a => fitsWord a
  | .readMap a k f n => fitsWord a && fitsWord k && fitsWord f && fitsWord n
  | .readNotices c => fitsWord c
  | .readId => true
  | .readFrame n => decide (1 ≤ n)
  | .cellFrameError _ code _ => fitsWord code
  | .powerOn => true
  | .resetInputAssert => true
  | .resetInputRelease => true
  | .attentionHoldExpiry => true
  | .hello _ letter tags code => fitsByte letter && tags.fits && fitsWord code
  | .ready _ => true
  | .armFrameDiscarded _ => true
  | .listenTimerExpiry _ => true
  | .agreeTimerExpiry _ => true
  | .silenceTimerExpiry _ => true
  | .requestArrival _ r => r.wf
  | .frameSent _ => true
  | .correct _ tag kind tip u => (Request.correct tag kind tip u).wf
  | .check _ tag t => (Request.check tag t).wf
  | .reserve _ tag first last wait => (Request.reserve tag first last wait).wf
  | .release _ tag first last => (Request.release tag first last).wf
  | .changeBegin _ tag t => (Request.changeBegin tag t).wf
  | .changeAbortArm _ tag => (Request.changeAbort tag).wf
  | .reportStaged _ tag => (Request.reportStaged tag).wf
  | .reportId _ tag code => (Request.reportId tag code).wf
  | .reportHit _ tag => (Request.reportHit tag).wf
  | .heartbeat _ tag => (Request.heartbeat tag).wf
  | .waitTimerExpiry _ => true
  | .stepTimerExpiry _ => true
  | .engageTimerExpiry _ => true
  | .portLineChange _ k _ _ => portExists k
  | .filterExpiry _ k _ => portExists k
  | .maskEnd _ => true
  | .pollPeriodExpiry => true
  | .pollSent => true
  | .reply f => f.fits
  | .replyTimeout => true
  | .slotEnd => true
  | .announce _ address channels kind => fitsByte address && fitsByte channels && fitsByte kind
  | .lineStuck => true
  | .busLineLevelChange _ => true
  | .releasedTimerExpiry => true
  | .staleTimerExpiry k => decide (1 ≤ k) && decide (k ≤ 32)
  | .holdTimerExpiry g => decide (1 ≤ g) && decide (g ≤ 12)

end Sys2Proof
end

