-- ==== Sys2Proof/Certificates/Slice0/Obligations.lean ====
section
/-! DEFINITION. The statements about the BN4620 that are asked of the provers. Each names the rule of spec/ that it comes from; a
clause that rests on a choice of the model names its log entry. A command of the cell link is stated with the whole next state:
what the record update does not name stays as it was. -/

open Sys2Proof Sys2Proof.Machine

/-! ### The step and the queue of commands -/

/-- A step of a machine whose queue has a front command is exec of that command on the rest (log entry 2). -/
def Obligations.StepRunsTheFrontCommand : Prop :=
  ∀ (c : Instr) (rest : List Instr) (s : State), step { s with pending := c :: rest } = exec c { s with pending := rest }

/-- Every command of the table completes in every state, and leaves the queue of commands to the step; and so does a step on an empty
queue: it lets one millisecond pass. The millisecond count gains 1, every running timer loses 1, and no other record changes; then the
timers that have run out expire, each once, by the event of its row, unless an earlier expiry of the instant has stopped or restarted
it (R1, R196, R201). The order of several expiries is free. The model's own: log entries 2, 3, 4 and 5. -/
def Obligations.EveryCommandAndIdleStepCompletes : Prop :=
  (∀ (c : Instr) (s : State), ∃ d, exec c s = .next { s with dev := d }) ∧
  ∀ s : State, s.pending = [] → s.dev.link.held = false →
    let d := s.dev
    ∃ e : Device,
      e.cell.ms = d.cell.ms + 1 ∧ (∀ t, e.timer t = (d.timer t).map (fun n => n - 1)) ∧
      e.link = { d.link with hold := e.link.hold } ∧
      e.bus = { d.bus with
        periodTimer := e.bus.periodTimer, releasedTimer := e.bus.releasedTimer, replyTimer := e.bus.replyTimer
        slotTimer := e.bus.slotTimer, stuckTimer := e.bus.stuckTimer } ∧
      (∀ k, e.channel k = { d.channel k with staleTimer := (e.channel k).staleTimer }) ∧
      (∀ g, e.group g = { d.group g with holdTimer := (e.group g).holdTimer }) ∧
      e.temp.driftWindow = d.temp.driftWindow ∧ e.workpiece = d.workpiece ∧ e.cell.probes = d.cell.probes ∧
      e.cell.bays = d.cell.bays ∧ e.cell.notices = d.cell.notices ∧
      (∀ a,
        let m := d.cell.arm a
        let n := e.cell.arm a
        n = { m with
          rack := { m.rack with ports := n.rack.ports, maskTimer := n.rack.maskTimer }
          seq := { m.seq with stepTimer := n.seq.stepTimer, engageTimer := n.seq.engageTimer }
          wait := n.wait
          port := { m.port with phaseTimer := n.port.phaseTimer, silenceTimer := n.port.silenceTimer } } ∧
        (∀ w, m.wait = some w → ∃ t, n.wait = some { w with timer := t }) ∧ (m.wait = none → n.wait = none) ∧
        (∀ i : Nat, n.rack.ports[i]? = (m.rack.ports[i]?).map (fun p =>
          { p with occupiedFilter := p.occupiedFilter.map (fun n => n - 1), headFilter := p.headFilter.map (fun n => n - 1) }))) ∧
      ∃ due : List TimerId, due.Nodup ∧ (∀ t, t ∈ due ↔ e.timer t = some 0) ∧
        let start := if due.length ≤ 1 then e else { e with freeCount := e.freeCount + 1 }
        step s = .next { s with dev := due.foldl (fun x t => if x.timer t = some 0 then x.expire t else x) start }

/-! ### Reset (R200, R201) -/

/-- The values after power-on that the rules of reset name: both arms OFF with their stop outputs asserted, both latch-release
outputs deasserted, the bus OFF with its driver disabled, no notice, attention deasserted, the millisecond count 0, every probe FREE with no code, no bay,
every seated field UNKNOWN, every map EMPTY, no arm configured, no last sample, no exit set, no wait, no stop latch, the bus, rack,
channel, group and drift parameters at their reset values with the poll period timer running, and the output queue holding the reset
response with source POWER (R12, R31, R47, R68, R79, R87, R89, R112, R122, R139, R144, R157, R162, R169, R177, R200, R201). The model's
own: log entry 20. -/
def Obligations.PowerOnResetValues : Prop :=
  (∀ a, State.reset.dev.cell.mode a = .off ∧ State.reset.dev.cell.stopOutput a = true ∧
      (State.reset.dev.cell.arm a).seq.latch = false ∧ (State.reset.dev.cell.arm a).seq.seated = .unknown ∧
      (State.reset.dev.cell.arm a).seq.state = .idle ∧ (State.reset.dev.cell.arm a).stop = none ∧
      (State.reset.dev.cell.arm a).configured = false ∧ (State.reset.dev.cell.arm a).settings.silence = 200 ∧
      (State.reset.dev.cell.arm a).lastSample = none ∧ (State.reset.dev.cell.arm a).exitSet = [] ∧
      (State.reset.dev.cell.arm a).wait = none ∧ (State.reset.dev.cell.arm a).groups = ⟨0, 0, 0, 0⟩ ∧
      (State.reset.dev.cell.arm a).rack.ports = [] ∧
      (State.reset.dev.cell.arm a).rack.params = ⟨10, 80, Table.fill Nat 8 60000, 300, 2, 24⟩ ∧
      ∀ k, (State.reset.dev.cell.arm a).maps.get k = ⟨.empty, 0, 0, 0, []⟩) ∧
  State.reset.dev.bus.state = .off ∧ State.reset.dev.bus.driverEnabled = false ∧ State.reset.dev.bus.pollPeriod = 500 ∧ State.reset.dev.bus.replyTimeout = 10 ∧
  State.reset.dev.bus.shortRetries = 2 ∧ State.reset.dev.bus.longRetry = 7 ∧ State.reset.dev.bus.rejoin = 3 ∧
  State.reset.dev.bus.periodTimer = some 500 ∧ (∀ n ∈ State.reset.dev.bus.nodes.val, n = ⟨0, 0, .unused, 0, 0⟩) ∧
  State.reset.dev.bus.announces = [] ∧ State.reset.dev.workpiece = ⟨0, 0, ⟨0, 0, 0⟩, ⟨0, 0, 0⟩⟩ ∧
  (∀ c ∈ State.reset.dev.temp.channels.val,
    c = ⟨0, 0, 0, 1, 500, false, false, 3, 5000, .unused, [], none, 0, none, none⟩) ∧
  (∀ g ∈ State.reset.dev.temp.groups.val, g.state = .empty ∧ g.value = none ∧ g.holdTime = 120000 ∧ g.spreadLimit = 0 ∧
    g.spread = false ∧ g.holdTimer = none) ∧
  State.reset.dev.temp.driftWindow = 1000 ∧ State.reset.dev.cell.noticeList = [] ∧ State.reset.dev.attention = false ∧
  State.reset.dev.cell.ms = 0 ∧ (∀ p ∈ State.reset.dev.cell.probes.val, p = ⟨.free, 0, .armA, .nowhere, 0, []⟩) ∧
  State.reset.dev.cell.bays = ⟨0, 10000, []⟩ ∧ State.reset.dev.link.queue = [1036, 0, 4, 0]

/-- RESET with room resets the part with source COMMAND, the output queue holding the reset response alone; the reset input holds
the part at its values after reset, its deassertion starts it with source INPUT, and power-on starts it with source POWER (R200,
R201). The levels of the input lines and the model's counter of free orders stay (log entries 7 and 18); power-on under an asserted
input stays held (log entry 22). -/
def Obligations.ResetCommandResetInputAndPowerOn : Prop :=
  (∀ s : State,
    let pins : Pins := ⟨s.dev.cell.armA.rack.lines, s.dev.cell.armB.rack.lines, s.dev.bus.lineDriven⟩
    let held (d : Device) (h : Bool) : Device := { d with link := { d.link with held := h } }
    (s.takes 2 → exec .reset s = .next { s with dev := Device.reset .command pins s.dev.freeCount }) ∧
    exec .resetInputAssert s = .next { s with dev := held (Device.reset .input pins s.dev.freeCount) true } ∧
    (s.dev.link.held = true → exec .resetInputRelease s = .next { s with dev := Device.reset .input pins s.dev.freeCount }) ∧
    (s.dev.link.held = false → exec .resetInputRelease s = .next s) ∧
    exec .powerOn s = .next { s with dev := held (Device.reset .power pins s.dev.freeCount) s.dev.link.held }) ∧
  (∀ pins n, (Device.reset .power pins n).link.queue = [1036, 0, 4, 0] ∧ (Device.reset .input pins n).link.queue = [1036, 0, 4, 1] ∧
    (Device.reset .command pins n).link.queue = [1036, 0, 4, 2])

/-- While the part is held in reset, frames, requests, expiries and commands are disregarded: every command but power-on, the two
changes of the reset input and the two changes of an input line leaves the part as it is (R201); so does an idle step. The model's
own: log entry 8. -/
def Obligations.HeldPartDisregardsCommands : Prop :=
  ∀ (c : Instr) (s : State), s.dev.link.held = true →
    (match c with
      | .powerOn | .resetInputAssert | .resetInputRelease | .portLineChange _ _ _ _ | .busLineLevelChange _ => True
      | _ => exec c s = .next s) ∧ (s.pending = [] → step s = .next s)

/-! ### The cell link (R192 to R199) -/

/-- A command that finds fewer than 256 free words changes nothing but the output queue: BUSY is appended if three words are free,
otherwise the overflow mark is set (R194). The words of the frame are those of the command's own layout (R202). -/
def Obligations.BusyCommandChangesOnlyTheOutputQueue : Prop :=
  ∀ (c : Instr) (code : Nat) (fields : List Word) (s : State), commandWords c = some (code, fields) → s.dev.link.held = false →
    1024 < s.dev.link.queue.length - (fields.length + 2) + 256 →
    exec c s =
      .next { s with
        dev := { s.dev with
          link :=
            if s.dev.link.queue.length - (fields.length + 2) + 3 ≤ 1024 then
              { s.dev.link with
                queue := s.dev.link.queue.drop (fields.length + 2) ++
                  [BitVec.ofNat 16 code, BitVec.ofNat 16 (4 + if s.dev.link.overflow then 32768 else 0), 3]
                overflow := false }
            else { s.dev.link with queue := s.dev.link.queue.drop (fields.length + 2), overflow := true } } }

/-- A frame of `n` words clocks out the oldest words of the output queue, and the idle word 65,535 where the queue is empty. A read
frame takes from the queue as many words as it clocks and changes nothing else. A frame error adds FRAME_ERROR with the reason and the
received code (0 without a whole word), takes its words, and appends a frame-error response where three words are free; no other
record changes (R192, R193, R194, R202). -/
def Obligations.FramesThatAreNoCommand : Prop :=
  (∀ (l : CellLink) (n : Nat), (l.wordsOut n).length = n ∧
    ∀ i, i < n → (l.wordsOut n)[i]? = if i < l.queue.length then l.queue[i]? else some 65535) ∧
  (∀ (n : Nat) (s : State), s.dev.link.held = false →
    exec (.readFrame n) s =
      .next { s with dev := { s.dev with link := { s.dev.link with queue := s.dev.link.queue.drop n } } }) ∧
  ∀ (reason : FrameReason) (code words : Nat) (s : State), s.dev.link.held = false →
    let received := if words = 0 then 0 else code
    let bits := match reason with | .bits => 256 | .length => 512 | .check => 768
    exec (.cellFrameError reason code words) s =
      .next { s with
        dev := { s.dev with
          cell := s.dev.cell.addNotice (.frameError reason received)
          link :=
            if s.dev.link.queue.length - words + 3 ≤ 1024 then
              { s.dev.link with
                queue := s.dev.link.queue.drop words ++
                  [BitVec.ofNat 16 received, BitVec.ofNat 16 (35 + bits + if s.dev.link.overflow then 32768 else 0), 3]
                overflow := false }
            else { s.dev.link with queue := s.dev.link.queue.drop words, overflow := true } } }

/-- Adding a notice: an absent cause gets an entry with this argument and count 1; a present cause keeps its first argument, and
its count is incremented, 255 staying 255; every other cause is as it was, and no other record changes (R197). -/
def Obligations.NoticeKeepsItsFirstArgument : Prop :=
  ∀ (c : Cell) (n : Notice),
    (c.notices.get n.place none = none → (c.addNotice n).notices.get n.place none = some ⟨n, 1⟩) ∧
    (∀ e, c.notices.get n.place none = some e →
      (c.addNotice n).notices.get n.place none = some ⟨e.notice, if e.count < 255 then e.count + 1 else e.count⟩) ∧
    (∀ k, k ≠ n.place → (c.addNotice n).notices.get k none = c.notices.get k none) ∧
    { c.addNotice n with notices := c.notices } = c

/-- READ_NOTICES answers every entry; with clear it empties the set after reading it, starts the attention hold of 1 ms and so
deasserts the attention output; without clear the set stands; another clear value is BAD_ARG. The expiry of the hold asserts the
output exactly if the set is non-empty (R198, R199). The model's own: log entries 4 and 20. -/
def Obligations.ReadNoticesAnswersAndClears : Prop :=
  (∀ s : State, s.takes 3 →
    exec (.readNotices 0) s = .next (s.answered 1290 3 0 (noticeBody s.dev.cell.noticeList) s.dev) ∧
    (∃ t, exec (.readNotices 1) s = .next t ∧
      t = s.answered 1290 3 0 (noticeBody s.dev.cell.noticeList)
        { s.dev with cell := { s.dev.cell with notices := Table.fill (Option NoticeEntry) 16 none },
                     link := { s.dev.link with hold := some 1 } } ∧
      t.dev.cell.noticeList = [] ∧ t.dev.attention = false) ∧
    (∀ clear, 2 ≤ clear → exec (.readNotices clear) s = .next (s.answered 1290 3 7 [] s.dev))) ∧
  (∀ s : State, s.dev.link.held = false →
    ∃ t, exec .attentionHoldExpiry s = .next t ∧ t = { s with dev := { s.dev with link := { s.dev.link with hold := none } } } ∧
      (t.dev.attention = true ↔ s.dev.cell.noticeList ≠ []))

/-- A read command changes no record. It answers OK with what it reads where its numbers are in range, and BAD_ARG with no body
elsewhere: READ_PROBE the record; READ_PORT for port 0 the parameters, the sequencer with its plan, the latch, the mask and the rings,
and for a configured port its state, box, levels and place in the plan; READ_NODE the bus or a node; READ_ANNOUNCE the announce list;
READ_CHANNEL a channel; READ_GROUP the assignments or a group; READ_BAYS the bays, the waits and the stop latches; READ_ARM the arm
record, the rack boxes, the effective envelope and the port; READ_MAP the header and the nodes; READ_ID the part (R42, R54, R64, R72,
R86, R95, R121, R156, R176, R195, R196). The model's own choices: the layout of the bodies that chapter 11 does not lay out (log entry 9),
the seated field's encoding and READ_ARM's order with each field once (21), the member counts of the last evaluation in READ_GROUP (25),
an envelope saturated without a flag (30), no count before the lists of READ_MAP and READ_BAYS (31), two words for a learned duration
(32), two flag words for a port's place in the plan (35), and the words of a change plan, zeros for an absent part or plan (36). -/
def Obligations.ReadCommandsAnswerWhatTheyRead : Prop :=
  ∀ s : State,
    let d := s.dev
    let answers (c : Instr) (code words : Nat) (body : List Word) : Prop :=
      s.takes words → exec c s = .next (s.answered code words 0 body d)
    let refused (c : Instr) (code words : Nat) : Prop := s.takes words → exec c s = .next (s.answered code words 7 [] d)
    (∀ p, if 1 ≤ p ∧ p ≤ 40 then answers (.readProbe p) 1281 3 (probeWords p (d.cell.probe p)) else refused (.readProbe p) 1281 3) ∧
    (∀ arm k, armOfCode arm = none → refused (.readPort arm k) 1282 4) ∧
    (∀ arm a, armOfCode arm = some a →
      let m := d.cell.arm a
      answers (.readPort arm 0) 1282 4
        (word m.rack.ports.length ++ portParamsWords m.rack.params ++ word (seatedCode m.seq.seated) ++ seqStateWords m.seq.state ++
          planWords m.seq.state ++ flagWord m.seq.latch ++ flagWord m.rack.maskTimer.isSome ++ ringsWords m.seq.rings) ∧
      ∀ k, 1 ≤ k →
        (m.rack.ports.length < k → refused (.readPort arm k) 1282 4) ∧
        ∀ p, d.cell.port? a k = some p →
          answers (.readPort arm k) 1282 4
            (portStateWords p.state ++ boxWords p.box ++ flagWord p.occupied ++ flagWord p.head ++
              flagWord (m.seq.state.plan?.bind Plan.drop == some k) ++ flagWord (m.seq.state.plan?.bind Plan.pick == some k))) ∧
    answers (.readNode 0) 1283 3
      (word d.bus.state.number ++ word d.bus.pollPeriod ++ word d.bus.replyTimeout ++ word d.bus.shortRetries ++
        word d.bus.longRetry ++ word d.bus.rejoin ++ word d.bus.cycleNumber.toNat ++ cyclePhaseWords d.bus.phase ++
        flagWord d.bus.startPending) ∧
    (∀ k, 1 ≤ k →
      let n := d.bus.node k
      if k ≤ 16 then answers (.readNode k) 1283 3 (word n.address ++ word n.channels ++ word n.state.number ++ word n.missed ++ word n.good)
      else refused (.readNode k) 1283 3) ∧
    answers .readAnnounce 1284 2
      (word d.bus.announces.length ++ d.bus.announces.flatMap (fun x => word x.address ++ word x.channels ++ word x.kind) ++
        flagWord d.bus.announceOverflow) ∧
    (∀ k,
      let c := d.channel k
      if 1 ≤ k ∧ k ≤ 32 then
        answers (.readChannel k) 1285 3
          (word c.node ++ word c.index ++ word c.group ++ word c.windowSize ++ word c.stepLimit ++ flagWord c.fine ++
            flagWord c.longStale ++ word c.rejectLimit ++ word c.staleTime ++ word c.state.number ++ word c.window.length ++
            c.window.flatMap (fun v => word2 v) ++ optionWords c.filtered ++ word c.rejects ++ optionWords c.lastAccepted ++
            timerWord2 c.staleTimer)
      else refused (.readChannel k) 1285 3) ∧
    answers (.readGroup 0) 1286 3
      (word d.temp.driftWindow ++ armGroupsWords d.cell.armA.groups ++ armGroupsWords d.cell.armB.groups ++ word d.workpiece.group) ∧
    (∀ k, 1 ≤ k →
      let g := d.group k
      if k ≤ 12 then
        answers (.readGroup k) 1286 3
          (word g.state.number ++ optionWords g.value ++ word2 g.holdTime ++ word g.spreadLimit ++ flagWord g.spread ++
            timerWord2 g.holdTimer ++ word g.members ++ word g.usable)
      else refused (.readGroup k) 1286 3) ∧
    answers .readBays 1287 2
      (word d.cell.bays.holders.length ++ word2 d.cell.bays.origin ++ word2 d.cell.bays.width ++
        d.cell.bays.holders.flatMap (fun h => word (holderNumber h)) ++ waitWords d.cell.armA.wait ++ waitWords d.cell.armB.wait ++
        d.cell.stopWords .armA ++ d.cell.stopWords .armB) ∧
    (∀ arm, armOfCode arm = none → refused (.readArm arm) 1288 3) ∧
    (∀ arm a, armOfCode arm = some a →
      let m := d.cell.arm a
      let boxes := List.range (m.rack.ports.length + 1)
      answers (.readArm arm) 1288 3
        (scaleWords m.settings m.groups ++ pointWords (d.workpiece.datum a) ++ word d.workpiece.group ++ word d.workpiece.alpha ++
          limitsWords m.settings m.configured ++ word m.port.mode.number ++ sampleWords m.lastSample ++
          listWords (boxes.filter (fun b => m.exitSet.contains b)) ++ listWords (boxes.filter (fun b => m.isOpen b)) ++
          boxWords (d.cell.envelope a).saturated ++ boxWords (d.cell.usedBox a) ++ portWords m.port)) ∧
    (∀ arm axis first count, (armOfCode arm = none ∨ axisOfCode axis = none) → refused (.readMap arm axis first count) 1289 6) ∧
    (∀ arm axis first count a k, armOfCode arm = some a → axisOfCode axis = some k →
      let m := (d.cell.arm a).maps.get k
      if count ≤ 8 ∧ first ≤ 63 ∧ (count = 0 ∨ first + count ≤ m.nodes.length) then
        answers (.readMap arm axis first count) 1289 6
          (mapHeaderWords m ++ ((m.nodes.drop first).take count).flatMap mapEntryWords)
      else refused (.readMap arm axis first count) 1289 6) ∧
    answers .readId 1291 2 (word 731 ++ word 4620 ++ word 1 ++ word2 d.cell.ms.toNat ++ word d.link.source.number)

/-- The frame of every well-formed command of the cell link, clocked whole, is judged to be that command: no bit of a field is
dropped (R192, R202). The model's own: log entries 24 and 26. -/
def Obligations.CommandFramesReadBack : Prop :=
  ∀ (i : Instr) (ws : List Word), i.wf = true → commandFrame i = some ws → judgeCellFrame (16 * ws.length) ws = some i

/-! ### Maps (R31 to R42) -/

/-- MAP_OPEN of an OFF arm that passes its checks discards the map's contents and sets it up LOADING with the clamped spacing and
no node written; it answers the header as stored (R35, R36). The model's own: log entry 9. -/
def Obligations.MapOpenSetsUpALoadingMap : Prop :=
  ∀ (arm axis tag count : Nat) (origin spacing : Int) (a : ArmId) (k : Axis) (s : State), s.takes 11 →
    armOfCode arm = some a → axisOfCode axis = some k → s.dev.cell.mode a = .off → 2 ≤ count → count ≤ 64 →
    let sp := min (max spacing 1000) 2000000
    origin + ((count : Int) - 1) * sp ≤ 2147483647 →
    exec (.mapOpen arm axis tag origin spacing count) s =
      .next (s.answered 513 11 (if sp = spacing then 0 else 1) (word2 tag ++ word2 origin ++ word2 sp ++ word count)
        (s.dev.onCell (fun c => c.modArm a (fun m =>
          { m with maps := m.maps.set k ⟨.loading, tag, origin, sp, List.replicate count ⟨⟨0, 0, 0, 0⟩, false⟩⟩ }))))

/-- MAP_NODES of a LOADING map of an OFF arm writes its entries to consecutive indices from the first, marks them written, leaves
every other entry and the rest of the map, and answers the number of indices written (R37, R38). -/
def Obligations.MapNodesWriteTheirEntries : Prop :=
  ∀ (arm axis first : Nat) (entries : List MapNode) (a : ArmId) (k : Axis) (s : State), s.takes (6 + 4 * entries.length) →
    armOfCode arm = some a → axisOfCode axis = some k → s.dev.cell.mode a = .off →
    ((s.dev.cell.arm a).maps.get k).state = .loading → 1 ≤ entries.length → entries.length ≤ 8 → first ≤ 63 →
    first + entries.length ≤ ((s.dev.cell.arm a).maps.get k).nodes.length →
    ∃ nodes : List MapEntry,
      nodes.length = ((s.dev.cell.arm a).maps.get k).nodes.length ∧
      (∀ i e, entries[i]? = some e → nodes[first + i]? = some ⟨e, true⟩) ∧
      (∀ j, (j < first ∨ first + entries.length ≤ j) → nodes[j]? = ((s.dev.cell.arm a).maps.get k).nodes[j]?) ∧
      exec (.mapNodes arm axis first entries) s =
        .next (s.answered 514 (6 + 4 * entries.length) 0 (word (nodes.filter (fun e => e.written)).length)
          (s.dev.onCell (fun c => c.modArm a (fun m =>
            { m with maps := m.maps.set k { m.maps.get k with nodes := nodes } }))))

/-- MAP_CLOSE of a LOADING map makes it READY when every index is written; otherwise it answers INCOMPLETE with the number of indices
not written and the lowest of them, and changes nothing; MAP_CLEAR makes a map EMPTY from any state (R39, R40). The model's own: log entry 11. -/
def Obligations.MapCloseAndMapClear : Prop :=
  ∀ (arm axis : Nat) (a : ArmId) (k : Axis) (s : State), s.takes 4 → armOfCode arm = some a → axisOfCode axis = some k →
    s.dev.cell.mode a = .off →
    let m := (s.dev.cell.arm a).maps.get k
    let put (r : MapRecord) := s.dev.onCell (fun c => c.modArm a (fun x => { x with maps := x.maps.set k r }))
    (m.state = .loading → (∀ e ∈ m.nodes, e.written = true) →
      exec (.mapClose arm axis) s = .next (s.answered 515 4 0 (word2 m.tag) (put { m with state := .ready }))) ∧
    (∀ (i : Nat) (e : MapEntry), m.state = .loading → m.nodes[i]? = some e → e.written = false →
      (∀ j x, j < i → m.nodes[j]? = some x → x.written = true) →
      exec (.mapClose arm axis) s =
        .next (s.answered 515 4 33 (word (m.nodes.filter (fun x => !x.written)).length ++ word i) s.dev)) ∧
    (m.state ≠ .loading → exec (.mapClose arm axis) s = .next (s.answered 515 4 8 [] s.dev)) ∧
    exec (.mapClear arm axis) s = .next (s.answered 516 4 0 [] (put ⟨.empty, 0, 0, 0, []⟩))

/-- The four map commands are refused with BAD_STATE and change no record while the map's arm is not OFF (R33, R35, R37, R39,
R40). -/
def Obligations.MapCommandsNeedTheArmOff : Prop :=
  ∀ (arm axis : Nat) (a : ArmId) (k : Axis) (s : State), armOfCode arm = some a → axisOfCode axis = some k →
    s.dev.cell.mode a ≠ .off →
    (∀ tag origin spacing count, s.takes 11 →
      exec (.mapOpen arm axis tag origin spacing count) s = .next (s.answered 513 11 8 [] s.dev)) ∧
    (∀ first entries, s.takes (6 + 4 * entries.length) →
      exec (.mapNodes arm axis first entries) s = .next (s.answered 514 (6 + 4 * entries.length) 8 [] s.dev)) ∧
    (s.takes 4 → exec (.mapClose arm axis) s = .next (s.answered 515 4 8 [] s.dev) ∧
      exec (.mapClear arm axis) s = .next (s.answered 516 4 8 [] s.dev))

/-- A map is LOADING only while its arm is OFF: every step keeps it (R33, R43). The model's own: log entry 2. -/
def Obligations.StepKeepsLoadingMapsToOffArms : Prop :=
  ∀ s t : State, s.bothArms Arm.loadsOnlyOff → step s = .next t → t.bothArms Arm.loadsOnlyOff

/-! ### The correction (R8 to R26) -/

/-- The geometric term of the components that the serving arm's three maps give the sample, and the Abbe term of their angular
components on the active tip's offset, the quotients rounded to the nearest integer with halves away from zero; a map that is not
READY gives 0 (R17, R18). -/
def Obligations.GeometricAndAbbeTerms : Prop :=
  ∀ (d : Device) (a : ArmId) (u o : Point),
    let x := ((d.cell.arm a).maps.x.use u.x).comp
    let y := ((d.cell.arm a).maps.y.use u.y).comp
    let z := ((d.cell.arm a).maps.z.use u.z).comp
    let t := (d.correctionInput a u o).compute
    t.g.x = -(x.ep + y.es1 + z.es1) ∧ t.g.y = -(x.es1 + y.ep + z.es2) ∧ t.g.z = -(x.es2 + y.es2 + z.ep) ∧
    t.a.x = roundDiv (x.ang * o.z) 10000000 ∧ t.a.y = roundDiv (y.ang * o.z) 10000000 ∧
    t.a.z = roundDiv (z.ang * o.y) 10000000 ∧
    ∀ (m : MapRecord) (v : Int), m.state ≠ .ready → (m.use v).comp = ⟨0, 0, 0, 0⟩

/-- A rounded quotient is the nearest integer, a half going away from zero; and so a component interpolated inside a map lies between
the values of that component at the two nodes. A READY map gives a sample before its origin the first node's components, and one at or
beyond its last node the last node's, each with OUTSIDE; a sample in the interval i at the offset f gets each component as
e[i] + round((e[i+1] − e[i]) · f / s), without OUTSIDE. A map that is not READY gives zeros without OUTSIDE. A CORRECT carries
OUTSIDE_k by the map of axis k, and MAP_ABSENT exactly if one of the three is not READY (R3, R8, R14, R15, R16). -/
def Obligations.RoundingAndInterpolation : Prop :=
  (∀ n d : Int, 0 < d →
    2 * (roundDiv n d * d - n).natAbs ≤ d.natAbs ∧
    (2 * (roundDiv n d * d - n).natAbs = d.natAbs → n.natAbs < (roundDiv n d * d).natAbs) ∧ roundDiv (-n) d = -roundDiv n d) ∧
  (∀ e0 e1 f s : Int, 0 ≤ f → f < s → min e0 e1 ≤ interpolate e0 e1 f s ∧ interpolate e0 e1 f s ≤ max e0 e1) ∧
  (∀ (m : MapRecord) (u : Int),
    (m.state ≠ .ready → m.use u = ⟨⟨0, 0, 0, 0⟩, true, false⟩) ∧
    (m.state = .ready → 0 < m.spacing →
      (∀ e, m.nodes[0]? = some e → u < m.origin → m.use u = ⟨e.node, false, true⟩) ∧
      (∀ e, m.nodes[m.nodes.length - 1]? = some e → m.origin + (m.nodes.length - 1 : Int) * m.spacing ≤ u →
        m.use u = ⟨e.node, false, true⟩) ∧
      (∀ (i : Nat) (f : Int) (e g : MapEntry), m.nodes[i]? = some e → m.nodes[i + 1]? = some g → 0 ≤ f → f < m.spacing →
        u = m.origin + i * m.spacing + f →
        let v (x y : Int) := x + roundDiv ((y - x) * f) m.spacing
        m.use u = ⟨⟨v e.node.ep g.node.ep, v e.node.es1 g.node.es1, v e.node.es2 g.node.es2, v e.node.ang g.node.ang⟩,
          false, false⟩))) ∧
  (∀ (d : Device) (a : ArmId) (u o : Point) (mm tq : Bool),
    let m := (d.cell.arm a).maps
    let f := (d.correctionInput a u o).flags mm tq
    f.outsideX = (m.x.use u.x).outside ∧ f.outsideY = (m.y.use u.y).outside ∧ f.outsideZ = (m.z.use u.z).outside ∧
    (f.mapAbsent = true ↔ m.x.state ≠ .ready ∨ m.y.state ≠ .ready ∨ m.z.state ≠ .ready))

/-- The thermal, tip and workpiece stages of a CORRECT of arm `a` at `u` with the active tip's offset `o`: C, P and W by their
formulas, a term 0 where its group gives no temperature, and the corrected coordinates saturated, SATURATED set exactly if one of
them was (R19, R20, R21). -/
def Obligations.ThermalTermsAndSaturation : Prop :=
  ∀ (d : Device) (a : ArmId) (u o : Point) (mm tq : Bool),
    let term (len : Int) (alpha : Nat) (g : Nat) : Int :=
      match (d.groupUse g).temp with
      | none => 0
      | some v => -roundDiv (len * alpha * (v - 20000)) 1000000000000
    let x := (d.cell.arm a).settings
    let g := (d.cell.arm a).groups
    let w := d.workpiece
    let i := d.correctionInput a u o
    let t := i.compute
    t.c = ⟨term (u.x - x.scaleX.r) x.scaleX.alpha g.x, term (u.y - x.scaleY.r) x.scaleY.alpha g.y,
      term (u.z - x.scaleZ.r) x.scaleZ.alpha g.z⟩ ∧
    t.p = ⟨u.x + t.g.x - t.a.x + t.c.x + o.x, u.y + t.g.y - t.a.y + t.c.y + o.y, u.z + t.g.z - t.a.z + t.c.z + o.z⟩ ∧
    t.w = ⟨term (t.p.x - (w.datum a).x) w.alpha w.group, term (t.p.y - (w.datum a).y) w.alpha w.group,
      term (t.p.z - (w.datum a).z) w.alpha w.group⟩ ∧
    t.q = ⟨max (-2147483648) (min 2147483647 (t.p.x + t.w.x)), max (-2147483648) (min 2147483647 (t.p.y + t.w.y)),
      max (-2147483648) (min 2147483647 (t.p.z + t.w.z))⟩ ∧
    ((i.flags mm tq).saturated = true ↔ t.q ≠ ⟨t.p.x + t.w.x, t.p.y + t.w.y, t.p.z + t.w.z⟩)

/-- The temperature that a group gives, and the flag it adds, by its state: VALID its value, HELD and LOST the held value with
THERMAL_HELD and THERMAL_LOST, none or EMPTY nothing with THERMAL_ABSENT; SPREAD with the spread flag of a value used. A CORRECT
consults the three scale groups of the arm and the workpiece group, and carries a flag when one of the four adds it (R11). -/
def Obligations.GroupStateChoosesTheTemperature : Prop :=
  ∀ (d : Device),
    d.groupUse 0 = ⟨none, false, false, true, false⟩ ∧
    (∀ g v, 1 ≤ g → (d.group g).value = some v →
      ((d.group g).state = .valid → d.groupUse g = ⟨some v, false, false, false, (d.group g).spread⟩) ∧
      ((d.group g).state = .held → d.groupUse g = ⟨some v, true, false, false, (d.group g).spread⟩) ∧
      ((d.group g).state = .lost → d.groupUse g = ⟨some v, false, true, false, (d.group g).spread⟩)) ∧
    (∀ g, 1 ≤ g → (d.group g).state = .empty → d.groupUse g = ⟨none, false, false, true, false⟩) ∧
    (∀ (a : ArmId) (u o : Point) (mm tq : Bool),
      let x := (d.cell.arm a).groups
      let four := [d.groupUse x.x, d.groupUse x.y, d.groupUse x.z, d.groupUse d.workpiece.group]
      let f := (d.correctionInput a u o).flags mm tq
      (f.thermalHeld = true ↔ ∃ g ∈ four, g.held = true) ∧ (f.thermalLost = true ↔ ∃ g ∈ four, g.lost = true) ∧
      (f.thermalAbsent = true ↔ ∃ g ∈ four, g.absent = true) ∧ (f.spread = true ↔ ∃ g ∈ four, g.spread = true))

/-- A refused CORRECT answers its tag and the code of the first failing check with zero coordinates and no flag, and changes no
record: no touch is counted and the last sample stays. In RUN the checks are BAD_ARG, NO_PROBE, CHANGING and BAD_TIP; in STARTING
it is BAD_STATE, at its arrival as well as at the head of the queue, where a sent frame may bring it into service (R6, R7, R188). The
model's own: which events serve a request (log entry 5), and the reading of R136, which names CHANGING for a TOUCH in CHANGE_FAULT, by
the order and the table of R6, which give NO_PROBE there (log entry 33). -/
def Obligations.RefusedCorrectChangesNothing : Prop :=
  ∀ (a : ArmId) (tag kind tip : Nat) (u : Point) (s : State),
    let m := s.dev.cell.arm a
    let refused (c : Cell) (st : Status) : State := s.withCell (c.handOver a
      (.correctResponse tag st ⟨0, 0, 0⟩ ⟨false, false, false, false, false, false, false, false, false, false, false⟩))
    let ranges := (kind = 1 ∨ kind = 2) ∧ tip ≤ 5 ∧ ¬(kind = 2 ∧ tip = 0)
    (s.serves a (.correct tag kind tip u) →
      (¬ranges → exec (.correct a tag kind tip u) s = .next (refused (s.atService a) .badArg)) ∧
      (ranges → tip ≠ 0 → (m.seq.seated = .noProbe ∨ m.seq.seated = .unknown) →
        exec (.correct a tag kind tip u) s = .next (refused (s.atService a) .noProbe)) ∧
      (∀ p, ranges → m.seq.seated = .probe p → kind = 2 → m.seq.state ≠ .idle →
        exec (.correct a tag kind tip u) s = .next (refused (s.atService a) .changing)) ∧
      (∀ p, ranges → m.seq.seated = .probe p → (kind = 1 ∨ m.seq.state = .idle) → (s.dev.cell.probe p).tips.length < tip →
        exec (.correct a tag kind tip u) s = .next (refused (s.atService a) .badTip))) ∧
    (s.dev.link.held = false → m.port.mode = .starting →
      (m.port.queue = [] → m.port.transmit.length ≤ 12 →
        exec (.correct a tag kind tip u) s = .next (refused s.dev.cell .badState)) ∧
      (∀ rest, m.port.queue = .correct tag kind tip u :: rest →
        (m.port.transmit.length ≤ 12 →
          exec (.correct a tag kind tip u) s =
            .next (refused (s.dev.cell.modArm a (fun x => { x with port := { x.port with queue := rest } })) .badState)) ∧
        (m.port.transmit.length = 13 →
          exec (.frameSent a) s =
            .next (refused (s.dev.cell.modArm a (fun x =>
              { x with port := { x.port with queue := rest, transmit := x.port.transmit.drop 1 } })) .badState))))

/-- A CORRECT that passes its checks is served whatever the maps and the groups are: a MOVE with tip 0, or with a tip of the
seated probe, or a TOUCH with such a tip while no change stands. It answers OK with the corrected coordinates and flags of the
records that stand, counts a TOUCH, and takes the raw sample. Where the sample lies in no closed rack box and needs no bay that
the arm does not hold, nothing else changes but the last sample and the exit set (R5, R6, R22, R24, R25, R28, R144, R147, R171).
The rack boxes open to an arm are those of the table of R145, and outside CYCLE those of its exit set; the staging box is rack box 0.
A sample outside CYCLE takes the boxes that it does not lie in out of the exit set, and as the first sample it brings in the closed
boxes that it lies in (R141, R145, R146). The model's own: log entries 5 and 12. -/
def Obligations.ServedCorrectAnswersAndBecomesTheLastSample : Prop :=
  (∀ (a : ArmId) (tag kind tip : Nat) (u o : Point) (notQualified : Bool) (s : State), s.serves a (.correct tag kind tip u) →
    let m := s.dev.cell.arm a
    let after := m.takeSample u
    let counted (c : Cell) : Cell :=
      match m.seq.seated with
      | .probe p => if kind = 2 then c.countTouch p tip else c
      | _ => c
    after.closedBoxesAt u = [] → s.dev.cell.missingAt a u = [] →
    ((kind = 1 ∧ tip = 0 ∧ o = ⟨0, 0, 0⟩ ∧ notQualified = false) ∨
      ∃ p t, m.seq.seated = .probe p ∧ (kind = 1 ∨ (kind = 2 ∧ m.seq.state = .idle)) ∧ 1 ≤ tip ∧ tip ≤ 5 ∧
        nth (s.dev.cell.probe p).tips tip = some t ∧ o = t.offset ∧ notQualified = (t.state != .qualified)) →
    let i := s.dev.correctionInput a u o
    exec (.correct a tag kind tip u) s =
      .next (s.withCell ((counted ((s.atService a).handOver a
          (.correctResponse tag .ok i.compute.q (i.flags m.mismatch notQualified)))).modArm a
        (fun x => { x with lastSample := some u, exitSet := after.exitSet }))) ∧
    after.lastSample = some u ∧ (m.seq.state.inCycle = true → after.exitSet = m.exitSet)) ∧
  ∀ (m : Arm) (b : Nat) (u : Point),
    let after := m.takeSample u
    (m.isOpen b = true ↔ m.seq.state.opensBox b ∨ (m.seq.state.inCycle = false ∧ b ∈ m.exitSet)) ∧
    (m.rackBox b = if b = 0 then some m.settings.staging else (nth m.rack.ports b).map (fun y => y.box)) ∧
    (b ∈ m.closedBoxesAt u ↔ m.inBox b u ∧ m.isOpen b = false) ∧
    after = { m with lastSample := some u, exitSet := after.exitSet } ∧
    (m.seq.state.inCycle = false →
      (m.lastSample ≠ none → (b ∈ after.exitSet ↔ b ∈ m.exitSet ∧ m.inBox b u)) ∧
      (m.lastSample = none → (b ∈ after.exitSet ↔ m.inBox b u ∧ (b ∈ m.exitSet ∨ ¬m.seq.state.opensBox b))))

/-- A served TOUCH counts one use of its tip, 65,535 staying; a QUALIFIED or DRIFTED tip whose count so reaches a non-zero touch
limit becomes DUE, with TIP_DUE; the other tips and the rest of the probe keep every field (R25, R26). -/
def Obligations.TouchCountsItsTip : Prop :=
  ∀ (c : Cell) (p t : Nat) (tip : Tip), 1 ≤ p → p ≤ 40 → nth (c.probe p).tips t = some tip →
    let n := if tip.touches < 65535 then tip.touches + 1 else tip.touches
    let due := (c.probe p).touchLimit ≠ 0 ∧ (c.probe p).touchLimit ≤ n ∧ (tip.state = .qualified ∨ tip.state = .drifted)
    nth ((c.countTouch p t).probe p).tips t =
      some { tip with touches := n, state := if due then .due else tip.state } ∧
    (∀ j, j ≠ t → nth ((c.countTouch p t).probe p).tips j = nth (c.probe p).tips j) ∧
    { (c.countTouch p t).probe p with tips := (c.probe p).tips } = c.probe p ∧
    (c.countTouch p t).notices = (if due then c.addNotice (.tipDue p t) else c).notices

/-! ### The sensor bus (R47 to R67) -/

/-- BUS_SET stores the five parameters, clamped, and answers them as stored; BUS_DISABLE takes the bus to OFF from every state,
abandoning the poll or slot in progress without an outcome; ANNOUNCE_CLEAR empties the announce list and its flag (R48, R50, R64).
The model's own: log entries 11 and 19. -/
def Obligations.BusSetBusDisableAnnounceClear : Prop :=
  (∀ (period timeout short long rejoin : Nat) (s : State), s.takes 7 →
    let p := min (max period 100) 5000
    let t := min (max timeout 2) 50
    let h := min short 3
    let l := min (max long 1) 15
    let r := min rejoin 6
    exec (.busSet period timeout short long rejoin) s =
      .next (s.answered 261 7 (if p = period ∧ t = timeout ∧ h = short ∧ l = long ∧ r = rejoin then 0 else 1)
        (word p ++ word t ++ word h ++ word l ++ word r)
        { s.dev with bus :=
          { s.dev.bus with pollPeriod := p, replyTimeout := t, shortRetries := h, longRetry := l, rejoin := r } })) ∧
  (∀ s : State, s.takes 2 →
    exec .busDisable s =
      .next (s.answered 1028 2 0 []
        { s.dev with bus :=
          { s.dev.bus with
            state := .off, phase := .between, startPending := false, previousSlot := [], presentSlot := [], sending := false
            replyTimer := none, slotTimer := none, releasedTimer := none, stuckTimer := none } }) ∧
    exec .announceClear s =
      .next (s.answered 1035 2 0 [] { s.dev with bus := { s.dev.bus with announces := [], announceOverflow := false } }))

/-- NODE_ADD of an UNUSED record with a free address makes it REJOINING with both counts 0 and takes the address out of the
announce list and both announce sets; NODE_REMOVE of a configured node that no channel names makes it UNUSED, and where it is
being polled the poll is abandoned and the next node chosen (R52, R53). The model's own: log entry 11. -/
def Obligations.NodeAddAndNodeRemove : Prop :=
  (∀ (node address channels : Nat) (s : State), s.takes 5 → 1 ≤ node → node ≤ 16 → 1 ≤ address → address ≤ 62 → 1 ≤ channels →
    channels ≤ 4 → (s.dev.bus.node node).state = .unused →
    (∀ n ∈ s.dev.bus.nodes.val, n.state ≠ .unused → n.address ≠ address) →
    exec (.nodeAdd node address channels) s =
      .next (s.answered 262 5 0 []
        { s.dev with bus :=
          { s.dev.bus with
            nodes := s.dev.bus.nodes.set node ⟨address, channels, .rejoining, 0, 0⟩
            announces := s.dev.bus.announces.filter (fun x => x.address != address)
            previousSlot := s.dev.bus.previousSlot.filter (fun x => x.address != address)
            presentSlot := s.dev.bus.presentSlot.filter (fun x => x.address != address) } })) ∧
  (∀ (node : Nat) (s : State), s.takes 3 → 1 ≤ node → node ≤ 16 → (s.dev.bus.node node).state ≠ .unused →
    (∀ c ∈ s.dev.temp.channels.val, c.state ≠ .unused → c.node ≠ node) →
    let removed := { s.dev.bus with nodes := s.dev.bus.nodes.set node ⟨0, 0, .unused, 0, 0⟩ }
    exec (.nodeRemove node) s =
      .next (s.answered 263 3 0 []
        { s.dev with bus :=
          if s.dev.bus.phase = .polling (s.dev.bus.node node).address then removed.chooseNext else removed }))

/-- BUS_ENABLE in OFF takes the bus to RUN with cycle 0, every configured node REJOINING with both counts 0, and the poll period
restarted, and polls its first node or begins the open slot; elsewhere it is BAD_STATE. BUS_RECOVER in FAULTED with the line released
returns the bus to RUN with its driver enabled in a new cycle with the next number; with the line driven it is STILL_STUCK, elsewhere
NOT_FAULTED. The driver is enabled exactly in RUN (R49, R55, R66, R67, R200). The model's own: log entries 11, 14 and 20. -/
def Obligations.BusEnableAndBusRecover : Prop :=
  ∀ s : State, s.takes 2 →
    (s.dev.bus.state = .off → ∃ b : Bus,
      exec .busEnable s = .next (s.answered 1027 2 0 [] { s.dev with bus := b }) ∧
      b = { s.dev.bus with
        state := .run, cycleNumber := 0, periodTimer := some s.dev.bus.pollPeriod, lastPolled := 0
        stuckTimer := if s.dev.bus.lineDriven then some 5 else none
        nodes := s.dev.bus.nodes.map (fun n : Node =>
          if n.state = NodeState.unused then n else { n with state := .rejoining, missed := 0, good := 0 }) }.chooseNext ∧
      b.state = .run ∧ b.cycleNumber = 0 ∧ b.periodTimer = some s.dev.bus.pollPeriod ∧ b.phase ≠ .between ∧
      b.driverEnabled = true ∧
      (∀ k, (b.node k) = if (s.dev.bus.node k).state = .unused then s.dev.bus.node k
        else { s.dev.bus.node k with state := .rejoining, missed := 0, good := 0 })) ∧
    (s.dev.bus.state ≠ .off → exec .busEnable s = .next (s.answered 1027 2 8 [] s.dev)) ∧
    (s.dev.bus.state = .faulted → s.dev.bus.lineDriven = false → ∃ b : Bus,
      exec .busRecover s = .next (s.answered 1029 2 0 [] { s.dev with bus := b }) ∧
      b = { s.dev.bus with
        state := .run, releasedTimer := none, periodTimer := some s.dev.bus.pollPeriod
        cycleNumber := s.dev.bus.cycleNumber + 1, lastPolled := 0 }.chooseNext ∧
      b.driverEnabled = true ∧ b.nodes = s.dev.bus.nodes) ∧
    (s.dev.bus.state = .faulted → s.dev.bus.lineDriven = true →
      exec .busRecover s = .next (s.answered 1029 2 32 [] s.dev)) ∧
    (s.dev.bus.state ≠ .faulted → exec .busRecover s = .next (s.answered 1029 2 31 [] s.dev)) ∧
    (∀ b : Bus, b.driverEnabled = true ↔ b.state = .run)

/-- The controller polls next the due node of lowest address above the one last polled, and begins the open slot when there is
none; a node is due ONLINE or REJOINING, or OFFLINE in a cycle whose number is a multiple of 2^k (R56, R61). The model's own: log
entry 19. -/
def Obligations.NextNodeIsTheLowestDueAddress : Prop :=
  ∀ b : Bus,
    let due (n : Node) := b.lastPolled < n.address ∧
      (n.state = .online ∨ n.state = .rejoining ∨ (n.state = .offline ∧ 2 ^ b.rejoin ∣ b.cycleNumber.toNat))
    ((∃ n ∈ b.nodes.val, due n) →
      ∃ n ∈ b.nodes.val, due n ∧ (∀ m ∈ b.nodes.val, due m → n.address ≤ m.address) ∧
        b.chooseNext = { b with
          phase := .polling n.address, lastPolled := n.address, attempt := 0, sending := true, replyTimer := none }) ∧
    ((∀ n ∈ b.nodes.val, ¬due n) →
      b.chooseNext = { b with phase := .slot, slotTimer := some 20, sending := false, replyTimer := none })

/-- Expiry of the poll period timer: in RUN between cycles the next cycle starts, in RUN otherwise start pending is set, in OFF
and FAULTED the groups are evaluated and the cycle number stands. The end of an open slot rotates the announce sets, evaluates the
groups, and starts a pending cycle (R55, R61). The model's own: log entry 4. -/
def Obligations.PollPeriodExpiryAndSlotEnd : Prop :=
  (∀ s : State, s.dev.link.held = false → s.dev.bus.periodTimer.isSome = true →
    let b := { s.dev.bus with periodTimer := some s.dev.bus.pollPeriod }
    (s.dev.bus.state = .run → s.dev.bus.phase = .between →
      exec .pollPeriodExpiry s =
        .next (s.withBus { b with cycleNumber := b.cycleNumber + 1, lastPolled := 0 }.chooseNext)) ∧
    (s.dev.bus.state = .run → s.dev.bus.phase ≠ .between →
      exec .pollPeriodExpiry s = .next (s.withBus { b with startPending := true })) ∧
    (s.dev.bus.state ≠ .run →
      exec .pollPeriodExpiry s = .next { s with dev := (s.withBus b).dev.evaluate } ∧ (s.withBus b).dev.evaluate.bus = b)) ∧
  (∀ s : State, s.dev.link.held = false → s.dev.bus.slotTimer.isSome = true →
    let b := { s.dev.bus with previousSlot := s.dev.bus.presentSlot, presentSlot := [], slotTimer := none, phase := .between }
    let evaluated := (s.withBus b).dev.evaluate
    exec .slotEnd s =
      .next { s with
        dev := { evaluated with bus :=
          if s.dev.bus.startPending then
            { b with startPending := false, cycleNumber := b.cycleNumber + 1, lastPolled := 0 }.chooseNext
          else b } })

/-- A poll: the reply timer starts when the poll frame has been sent; a wrong check value, a wrong number of entries and the
expiry of the reply timer are misses, after which the next attempt is sent while short retries are left; a frame from elsewhere is
discarded. A good poll zeroes the misses: of an ONLINE node it delivers the readings, a REJOINING node becomes ONLINE at its second in
a row, an OFFLINE node becomes REJOINING with one. A failed poll counts a miss, 15 staying 15: it takes an ONLINE or REJOINING node
OFFLINE at the long retry count, with NODE_OFFLINE, zeroes the good count of a REJOINING node, and leaves the state of any other. The
next node is chosen (R57 to R60). The model's own: log entries 4, 13 and 19. -/
def Obligations.PollAttemptsAndOutcomes : Prop :=
  ∀ (s : State) (k address : Nat) (f : BusFrame), s.dev.link.held = false →
    (s.dev.bus.sending = true →
      exec .pollSent s = .next (s.withBus { s.dev.bus with sending := false, replyTimer := some s.dev.bus.replyTimeout })) ∧
    (s.dev.bus.sending = false → exec .pollSent s = .next s) ∧
    (s.dev.bus.state = .run → s.dev.bus.phase = .polling address → s.dev.bus.replyTimer.isSome = true →
      s.dev.bus.nodeAt address = some k →
      let b := s.dev.bus
      let n := b.node k
      let missed := if n.missed < 15 then n.missed + 1 else n.missed
      let again := s.withBus { b with attempt := b.attempt + 1, sending := true, replyTimer := none }
      let with' (n : Node) : State := s.withBus (b.setNode k n).chooseNext
      let lost (n : Node) : State := (with' n).withCell (s.dev.cell.addNotice (.nodeOffline k))
      let good := f.checkOk = true ∧ f.type = 2 ∧ f.address = address ∧ f.attempt = b.attempt ∧ f.entries.length = n.channels
      let wrong := f.checkOk = false ∨
        (f.type = 2 ∧ f.address = address ∧ f.attempt = b.attempt ∧ f.entries.length ≠ n.channels)
      (b.attempt < b.shortRetries → exec .replyTimeout s = .next again) ∧
      (wrong → exec (.reply f) s = exec .replyTimeout s) ∧
      (f.checkOk = true → (f.type ≠ 2 ∨ f.address ≠ address ∨ f.attempt ≠ b.attempt) → exec (.reply f) s = .next s) ∧
      (good → n.state = .online →
        exec (.reply f) s =
          .next { s with dev :=
            ((s.withBus (b.setNode k { n with missed := 0 })).dev.deliverAll k f.entries).onBus Bus.chooseNext }) ∧
      (good → n.state = .rejoining → n.good = 0 → exec (.reply f) s = .next (with' { n with missed := 0, good := 1 })) ∧
      (good → n.state = .rejoining → 1 ≤ n.good →
        exec (.reply f) s = .next (with' { n with missed := 0, good := 0, state := .online })) ∧
      (good → n.state = .offline →
        exec (.reply f) s = .next (with' { n with missed := 0, good := 1, state := .rejoining })) ∧
      (b.shortRetries ≤ b.attempt →
        (n.state = .online → missed < b.longRetry → exec .replyTimeout s = .next (with' { n with missed := missed })) ∧
        (n.state = .online → b.longRetry ≤ missed →
          exec .replyTimeout s = .next (lost { n with missed := missed, state := .offline })) ∧
        (n.state = .rejoining → missed < b.longRetry →
          exec .replyTimeout s = .next (with' { n with missed := missed, good := 0 })) ∧
        (n.state = .rejoining → b.longRetry ≤ missed →
          exec .replyTimeout s = .next (lost { n with missed := missed, good := 0, state := .offline })) ∧
        (n.state = .offline → exec .replyTimeout s = .next (with' { n with missed := missed }))))

/-- An announce in an open slot from an unconfigured address is entered in the present-slot set; when the previous-slot set holds
its address it is confirmed: it leaves that set, NODE_ANNOUNCED is added, and it refreshes its entry of the announce list, or
joins it after the last while fewer than four stand there, or sets the overflow flag. Any other announce is discarded (R62,
R63). -/
def Obligations.AnnounceIsConfirmedInTheNextSlot : Prop :=
  ∀ (checkOk : Bool) (address channels kind : Nat) (s : State), s.dev.link.held = false →
    let b := s.dev.bus
    let x : Announce := ⟨address, channels, kind⟩
    let ok := b.phase = .slot ∧ checkOk = true ∧ 1 ≤ address ∧ address ≤ 62 ∧ 1 ≤ channels ∧ channels ≤ 4 ∧ b.nodeAt address = none
    let others (l : List Announce) := l.filter (fun y => y.address != address)
    (¬ok → exec (.announce checkOk address channels kind) s = .next s) ∧
    (ok → (∀ y ∈ b.previousSlot, y.address ≠ address) →
      exec (.announce checkOk address channels kind) s =
        .next (s.withBus { b with presentSlot := others b.presentSlot ++ [x] })) ∧
    (ok → (∃ y ∈ b.previousSlot, y.address = address) →
      exec (.announce checkOk address channels kind) s =
        .next ((s.withBus
          (if ∃ y ∈ b.announces, y.address = address then
            { b with
              previousSlot := others b.previousSlot
              announces := b.announces.map (fun y => if y.address = address then x else y) }
          else if b.announces.length < 4 then
            { b with previousSlot := others b.previousSlot, announces := b.announces ++ [x] }
          else { b with previousSlot := others b.previousSlot, announceOverflow := true })).withCell
            (s.dev.cell.addNotice (.nodeAnnounced address))))

/-- The line: in RUN a line that has stood driven for 5 ms makes the bus FAULTED, with its driver disabled, the poll or slot in progress
abandoned and BUS_FAULT added with the address polled or 0; in FAULTED the released timer runs while the line is released and stops
while it is driven; its expiry returns the bus to RUN with its driver enabled in a new cycle (R65, R66). That the row sets the line's
level: log entry 14. The model's own: log entries 4, 14 and 20. -/
def Obligations.LineStuckAndRecovery : Prop :=
  ∀ s : State, s.dev.link.held = false →
    let b := s.dev.bus
    (b.state = .run → ∀ address, (b.phase = .polling address ∨ (address = 0 ∧ ∀ x, b.phase ≠ .polling x)) →
      exec .lineStuck s =
        .next ((s.withBus { b with
            state := .faulted, phase := .between, startPending := false, previousSlot := [], presentSlot := [], sending := false
            replyTimer := none, slotTimer := none, stuckTimer := none, releasedTimer := none, lineDriven := true }).withCell
          (s.dev.cell.addNotice (.busFault address)))) ∧
    (b.state ≠ .run → exec .lineStuck s = .next s) ∧
    (b.state = .faulted → b.lineDriven = true →
      exec (.busLineLevelChange false) s = .next (s.withBus { b with lineDriven := false, releasedTimer := some 100 })) ∧
    (b.state = .faulted → b.lineDriven = false →
      exec (.busLineLevelChange true) s = .next (s.withBus { b with lineDriven := true, releasedTimer := none })) ∧
    (b.state = .run → b.lineDriven = false →
      exec (.busLineLevelChange true) s = .next (s.withBus { b with lineDriven := true, stuckTimer := some 5 })) ∧
    (b.state = .faulted → b.releasedTimer.isSome = true →
      exec .releasedTimerExpiry s =
        .next (s.withBus { b with
          state := .run, releasedTimer := none, periodTimer := some b.pollPeriod, cycleNumber := b.cycleNumber + 1
          lastPolled := 0 }.chooseNext)) ∧
    ∀ t : State, (exec .lineStuck s = .next t → t.dev.bus.driverEnabled = false) ∧
      (b.state = .faulted → b.releasedTimer.isSome = true → exec .releasedTimerExpiry s = .next t →
        t.dev.bus.driverEnabled = true)

/-- Outside RUN the bus is still: every step keeps it (R50, R65). The model's own: log entry 2. -/
def Obligations.StepKeepsTheBusQuietOutsideRun : Prop :=
  ∀ s t : State, s.dev.bus.quiet → step s = .next t → t.dev.bus.quiet

/-! ### Temperature channels and groups (R68 to R88) -/

/-- The three channel commands change the channel as their rules say and then evaluate the groups: CHANNEL_SET makes it WAITING
with the new configuration, its values clamped, and no reading; CHANNEL_REMOVE gives it its reset values; CHANNEL_CLEAR makes a
FAULTED channel WAITING with its configuration kept (R70, R71, R77). The model's own: log entries 9 and 11. -/
def Obligations.ChannelCommandsThenEvaluate : Prop :=
  (∀ (channel node index group window fine longStale rejectLimit staleTime : Nat) (stepLimit : Int) (s : State), s.takes 12 →
    1 ≤ channel → channel ≤ 32 → 1 ≤ node → node ≤ 16 → 1 ≤ index → group ≤ 12 →
    (window = 1 ∨ window = 2 ∨ window = 4 ∨ window = 8) → fine ≤ 1 → longStale ≤ 1 → (s.dev.bus.node node).state ≠ .unused →
    index ≤ (s.dev.bus.node node).channels → index ≤ 4 →
    (∀ k, k ≠ channel → (s.dev.channel k).state ≠ .unused → ¬((s.dev.channel k).node = node ∧ (s.dev.channel k).index = index)) →
    let sl := min (max stepLimit 10) 5000
    let rl := min (max rejectLimit 1) 15
    let st := min (max staleTime 1000) 60000
    exec (.channelSet channel node index group window stepLimit fine longStale rejectLimit staleTime) s =
      .next (s.answered 264 12 (if sl = stepLimit ∧ rl = rejectLimit ∧ st = staleTime then 0 else 1)
        (word node ++ word index ++ word group ++ word window ++ word sl ++ word fine ++ word longStale ++ word rl ++ word st)
        (s.dev.setChannel channel ⟨node, index, group, window, sl, fine == 1, longStale == 1, rl, st, .waiting, [], none, 0, none,
          none⟩).evaluate)) ∧
  (∀ (channel : Nat) (s : State), s.takes 3 → 1 ≤ channel → channel ≤ 32 →
    ((s.dev.channel channel).state ≠ .unused →
      exec (.channelRemove channel) s =
        .next (s.answered 265 3 0 []
          (s.dev.setChannel channel ⟨0, 0, 0, 1, 500, false, false, 3, 5000, .unused, [], none, 0, none, none⟩).evaluate)) ∧
    ((s.dev.channel channel).state = .faulted →
      exec (.channelClear channel) s =
        .next (s.answered 1030 3 0 []
          (s.dev.setChannel channel { s.dev.channel channel with
            state := .waiting, window := [], filtered := none, lastAccepted := none, rejects := 0 }).evaluate)) ∧
    ((s.dev.channel channel).state ≠ .faulted → exec (.channelClear channel) s = .next (s.answered 1030 3 31 [] s.dev)))

/-- WORKPIECE_SET replaces the whole workpiece record, clamping the expansion rate, in every mode of either arm, and a group
outside 0..12 is BAD_ARG. GROUP_SET stores the clamped hold time and spread limit in every state of the group and mode of either
arm and touches neither the state, the value, the flag nor the running timer, and a group outside 1..12 is BAD_ARG; TEMP_SET with
both arms OFF stores the clamped drift window and the eight assignments, and is BAD_STATE otherwise (R12, R80, R87). The model's
own: log entry 11. -/
def Obligations.WorkpieceSetGroupSetTempSet : Prop :=
  (∀ (group alpha : Nat) (da db : Point) (s : State), s.takes 16 →
    (group ≤ 12 → exec (.workpieceSet group alpha da db) s =
      .next (s.answered 260 16 (if alpha ≤ 40000 then 0 else 1) [] { s.dev with workpiece := ⟨group, min alpha 40000, da, db⟩ })) ∧
    (12 < group → exec (.workpieceSet group alpha da db) s = .next (s.answered 260 16 7 [] s.dev))) ∧
  (∀ (group hold : Nat) (spread : Int) (s : State), s.takes 6 →
    ((group < 1 ∨ 12 < group) → exec (.groupSet group hold spread) s = .next (s.answered 266 6 7 [] s.dev)) ∧
    (1 ≤ group → group ≤ 12 → exec (.groupSet group hold spread) s =
      .next (s.answered 266 6 (if hold ≤ 600000 ∧ 0 ≤ spread ∧ spread ≤ 10000 then 0 else 1) []
        (s.dev.setGroup group { s.dev.group group with holdTime := min hold 600000, spreadLimit := max 0 (min spread 10000) })))) ∧
  (∀ (drift : Int) (ga gb : ArmGroups) (s : State), s.takes 11 → ga.x ≤ 12 → ga.y ≤ 12 → ga.z ≤ 12 → ga.env ≤ 12 → gb.x ≤ 12 →
    gb.y ≤ 12 → gb.z ≤ 12 → gb.env ≤ 12 →
    (s.dev.cell.mode .armA = .off → s.dev.cell.mode .armB = .off →
      exec (.tempSet drift ga gb) s =
        .next (s.answered 267 11 (if 100 ≤ drift ∧ drift ≤ 5000 then 0 else 1) []
          { s.dev with
            cell := { s.dev.cell with
              armA := { s.dev.cell.armA with groups := ga }
              armB := { s.dev.cell.armB with groups := gb } }
            temp := { s.dev.temp with driftWindow := min (max drift 100) 5000 } })) ∧
    ((s.dev.cell.mode .armA ≠ .off ∨ s.dev.cell.mode .armB ≠ .off) →
      exec (.tempSet drift ga gb) s = .next (s.answered 267 11 8 [] s.dev)))

/-- A delivery to a WAITING, ACTIVE or STALE channel. Accepted: it joins the window as the newest, the filtered value is the rounded
mean, the rejects are 0, the stale timer restarts, the channel is ACTIVE. Rejected (a reading outside −40,000..85,000 m°C, a fault
marker among them, or a step beyond the effective limit): the rejects are counted, and at the limit the channel becomes FAULTED
with CHANNEL_FAULT. A FAULTED channel discards it (R73, R74, R75). The readings of a node are delivered one after the other, channel
index 1 first, each to the channel that names the node and the index, and one that no channel names is discarded (R60, R73). The rounded
mean of integers is their sum divided by their count, to the nearest integer with halves away from zero (R3). -/
def Obligations.DeliveriesAreJudged : Prop :=
  (∀ (d : Device) (node : Nat) (entries : List Int) (v : Int),
    let names (index k : Nat) : Prop := (d.channel k).state ≠ .unused ∧ (d.channel k).node = node ∧ (d.channel k).index = index
    d.deliverAll node [] = d ∧
    d.deliverAll node (entries ++ [v]) = (d.deliverAll node entries).deliver node (entries.length + 1) v ∧
    ∀ index,
      ((∀ k, ¬names index k) → d.deliver node index v = d) ∧
      (∀ k, names index k → (∀ j, j ≠ k → ¬names index j) → d.deliver node index v = d.deliverTo k v)) ∧
  (∀ l : List Int, l ≠ [] →
    let off := roundedMean l * l.length - l.sum
    2 * off.natAbs ≤ l.length ∧ (2 * off.natAbs = l.length → l.sum.natAbs < (roundedMean l * l.length).natAbs)) ∧
  ∀ (d : Device) (k : Nat) (v : Int), 1 ≤ k → k ≤ 32 →
    let c := d.channel k
    let limit := if c.fine then c.stepLimit / 2 else c.stepLimit
    let rejected := v < -40000 ∨ 85000 < v ∨ ∃ last, c.lastAccepted = some last ∧ limit < ((v - last).natAbs : Int)
    let judged := c.state = .waiting ∨ c.state = .active ∨ c.state = .stale
    (¬judged → d.deliverTo k v = d) ∧
    (judged → ¬rejected →
      let w := (v :: c.window).take c.windowSize
      d.deliverTo k v = d.setChannel k { c with
        window := w, filtered := some (roundedMean w), lastAccepted := some v, rejects := 0, state := .active
        staleTimer := some (if c.longStale then 2 * c.staleTime else c.staleTime) }) ∧
    (judged → rejected → c.rejects + 1 < c.rejectLimit → d.deliverTo k v = d.setChannel k { c with rejects := c.rejects + 1 }) ∧
    (judged → rejected → c.rejectLimit ≤ c.rejects + 1 →
      d.deliverTo k v = (d.setChannel k { c with
        rejects := c.rejects + 1, state := .faulted, window := [], staleTimer := none }).addNotice (.channelFault k))

/-- The evaluation of a group from its members: with an ACTIVE member VALID with the rounded mean of their filtered values, the
spread flag by the limit; without members EMPTY; with members none of them ACTIVE, a VALID group HELD with its value and its hold
timer started, or LOST at once with hold time 0, and HELD, LOST and EMPTY groups as they were. An evaluation takes all twelve groups,
each from the channels that name it, adds GROUP_LOST for each group that it makes LOST, in a free order, and then gives the
group-updated signal for all twelve (R79, R81, R82, R83, R85). The model's own: log entry 3. -/
def Obligations.GroupEvaluation : Prop :=
  (∀ d : Device,
    let e := d.evaluateGroups
    d.evaluate = e.signal [1, 2, 3, 4, 5, 6, 7, 8, 9, 10, 11, 12] ∧
    (∀ g c, c ∈ d.members g ↔ c ∈ d.temp.channels.val ∧ c.state ≠ .unused ∧ c.group = g) ∧
    (∀ g, 1 ≤ g → g ≤ 12 → e.group g = (d.group g).evaluated (d.members g)) ∧
    e.temp.channels = d.temp.channels ∧ e.temp.driftWindow = d.temp.driftWindow ∧ e.bus = d.bus ∧ e.link = d.link ∧
    e.workpiece = d.workpiece ∧
    ∃ lost : List Nat, lost.Nodup ∧
      (∀ g, g ∈ lost ↔ 1 ≤ g ∧ g ≤ 12 ∧ (d.group g).state = .valid ∧ ((d.group g).evaluated (d.members g)).state = .lost) ∧
      e.cell = lost.foldl (fun c g => c.addNotice (.groupLost g)) d.cell) ∧
  ∀ (x : Group) (members : List Channel), (∀ c ∈ members, c.state = .active → c.filtered ≠ none) →
    let values := (members.filter (fun c => c.state == .active)).filterMap (fun c => c.filtered)
    let y := x.evaluated members
    y.holdTime = x.holdTime ∧ y.spreadLimit = x.spreadLimit ∧
    ((∃ c ∈ members, c.state = .active) →
      y.state = .valid ∧ y.value = some (roundedMean values) ∧ y.holdTimer = none ∧
      (y.spread = true ↔ x.spreadLimit ≠ 0 ∧ ∃ a ∈ values, ∃ b ∈ values, x.spreadLimit < a - b)) ∧
    (members = [] → y.state = .empty ∧ y.value = none ∧ y.spread = false ∧ y.holdTimer = none) ∧
    (members ≠ [] → (∀ c ∈ members, c.state ≠ .active) →
      y.value = x.value ∧ y.spread = x.spread ∧
      (x.state = .valid → x.holdTime ≠ 0 → y.state = .held ∧ y.holdTimer = some x.holdTime) ∧
      (x.state = .valid → x.holdTime = 0 → y.state = .lost ∧ y.holdTimer = x.holdTimer) ∧
      (x.state ≠ .valid → y.state = x.state ∧ y.holdTimer = x.holdTimer))

/-- Expiry of a stale timer makes an ACTIVE channel STALE and evaluates nothing; expiry of the hold timer of a HELD group makes it
LOST with its value kept, adds GROUP_LOST, and gives the signal for that group alone (R76, R84, R85). The model's own: log entry
4. -/
def Obligations.StaleAndHoldTimersExpire : Prop :=
  ∀ (s : State) (k g : Nat), s.dev.link.held = false →
    ((s.dev.channel k).staleTimer.isSome = true → (s.dev.channel k).state = .active →
      exec (.staleTimerExpiry k) s =
        .next { s with dev := s.dev.setChannel k { s.dev.channel k with staleTimer := none, state := .stale } }) ∧
    ((s.dev.channel k).staleTimer = none → exec (.staleTimerExpiry k) s = .next s) ∧
    ((s.dev.group g).holdTimer.isSome = true → (s.dev.group g).state = .held →
      exec (.holdTimerExpiry g) s =
        .next { s with dev :=
          ((s.dev.setGroup g { s.dev.group g with holdTimer := none, state := .lost }).addNotice (.groupLost g)).signal [g] }) ∧
    ((s.dev.group g).holdTimer = none → exec (.holdTimerExpiry g) s = .next s)

/-- A drift evaluation of a tip: VALID and HELD compare the value with Tq, a difference above the drift window making a QUALIFIED
tip DRIFTED and one within it a DRIFTED tip QUALIFIED; LOST makes a QUALIFIED tip DRIFTED; EMPTY changes nothing; an UNQUALIFIED,
DUE or SUSPECT tip keeps its state; Tq, offset and touch count stay. A group-updated signal evaluates every tip of each probe that is
not FREE and whose home arm has one of the signal's groups as its probe-environment group, and no other probe; it adds TIP_DRIFTED for
each tip that it makes DRIFTED, in a free order, and changes nothing else (R85, R103, R104). The model's own: log entry 3. -/
def Obligations.DriftEvaluationOfATip : Prop :=
  (∀ (d : Device) (gs : List Nat),
    let e := d.signal gs
    let env (p : Nat) := (d.cell.arm (d.cell.probe p).home).groups.env
    let follows (p : Nat) : Prop := (d.cell.probe p).state ≠ .free ∧ env p ∈ gs
    (∀ p, follows p → e.cell.probe p =
      { d.cell.probe p with tips := (d.cell.probe p).tips.map (fun t => t.evaluate (d.group (env p)) d.temp.driftWindow) }) ∧
    (∀ p, ¬follows p → e.cell.probe p = d.cell.probe p) ∧
    (∃ drifted : List (Nat × Nat), drifted.Nodup ∧
      (∀ p t, (p, t) ∈ drifted ↔ follows p ∧ ∃ tip, nth (d.cell.probe p).tips t = some tip ∧ tip.state = .qualified ∧
        (tip.evaluate (d.group (env p)) d.temp.driftWindow).state = .drifted) ∧
      e.cell.notices = (drifted.foldl (fun c x => c.addNotice (.tipDrifted x.1 x.2)) d.cell).notices) ∧
    (∀ a, e.cell.arm a = d.cell.arm a) ∧ e.cell.bays = d.cell.bays ∧ e.cell.ms = d.cell.ms ∧ e.temp = d.temp ∧ e.bus = d.bus ∧
    e.link = d.link ∧ e.workpiece = d.workpiece) ∧
  ∀ (t : Tip) (g : Group) (w : Int),
    let u := t.evaluate g w
    { u with state := t.state } = t ∧
    ((t.state = .unqualified ∨ t.state = .due ∨ t.state = .suspect ∨ g.state = .empty) → u.state = t.state) ∧
    ((t.state = .qualified ∨ t.state = .drifted) →
      (g.state = .lost → u.state = .drifted) ∧
      (∀ v q, (g.state = .valid ∨ g.state = .held) → g.value = some v → t.tq = some q →
        u.state = if w < ((v - q).natAbs : Int) then .drifted else .qualified))

/-! ### Probes (R89 to R110) -/

/-- PROBE_DEFINE of a FREE record with a code that no other record carries makes the probe DEFINED and OUT, its tips UNQUALIFIED
with their values clamped, and answers the least box that holds every tip (R92, R93, R94). PROBE_RETIRE of a probe that is OUT
makes the record FREE and ends the expectation of a port for it; of a probe elsewhere it makes it RETIRING, every other field
kept; a RETIRING probe stays (R108, R109). The model's own: log entry 11. -/
def Obligations.ProbeDefineAndProbeRetire : Prop :=
  (∀ (probe code home touchLimit : Nat) (tips : List TipGeometry) (a : ArmId) (s : State), s.takes (8 + 8 * tips.length) →
    1 ≤ probe → probe ≤ 40 → 1 ≤ code → code ≤ 65535 → armOfCode home = some a → 1 ≤ tips.length → tips.length ≤ 5 →
    (s.dev.cell.probe probe).state = .free → (∀ p ∈ s.dev.cell.probes.val, p.state ≠ .free → p.code ≠ code) →
    let off (v : Int) := max (-5000000) (min 5000000 v)
    let made : List Tip := tips.map (fun t =>
      ⟨⟨off t.offset.x, off t.offset.y, off t.offset.z⟩, max 0 (min t.radius 100000), .unqualified, none, 0⟩)
    ∃ box : Box,
      (∀ t ∈ made, box.lo.x ≤ t.offset.x - t.radius ∧ box.lo.y ≤ t.offset.y - t.radius ∧ box.lo.z ≤ t.offset.z - t.radius ∧
        t.offset.x + t.radius ≤ box.hi.x ∧ t.offset.y + t.radius ≤ box.hi.y ∧ t.offset.z + t.radius ≤ box.hi.z) ∧
      (∃ t ∈ made, box.lo.x = t.offset.x - t.radius) ∧ (∃ t ∈ made, box.lo.y = t.offset.y - t.radius) ∧
      (∃ t ∈ made, box.lo.z = t.offset.z - t.radius) ∧ (∃ t ∈ made, box.hi.x = t.offset.x + t.radius) ∧
      (∃ t ∈ made, box.hi.y = t.offset.y + t.radius) ∧ (∃ t ∈ made, box.hi.z = t.offset.z + t.radius) ∧
      exec (.probeDefine probe code home tips.length touchLimit tips) s =
        .next (s.answered 769 (8 + 8 * tips.length)
          (if made.map (fun t => (⟨t.offset, t.radius⟩ : TipGeometry)) = tips then 0 else 1) (boxWords box)
          { s.dev with cell := { s.dev.cell with
            probes := s.dev.cell.probes.set probe ⟨.defined, code, a, .out, touchLimit, made⟩ } })) ∧
  (∀ (probe : Nat) (s : State), s.takes 3 → 1 ≤ probe → probe ≤ 40 → (s.dev.cell.probe probe).state ≠ .free →
    let p := s.dev.cell.probe probe
    (p.state = .retiring → exec (.probeRetire probe) s = .next (s.answered 771 3 0 [] s.dev)) ∧
    (p.state ≠ .retiring → p.location ≠ .out →
      exec (.probeRetire probe) s =
        .next (s.answered 771 3 0 [] { s.dev with cell := { s.dev.cell with
          probes := s.dev.cell.probes.set probe { p with state := .retiring } } })) ∧
    (p.state ≠ .retiring → p.location = .out →
      let unexpected := s.dev.cell.modArm p.home (fun m => { m with rack := { m.rack with
        ports := m.rack.ports.map (fun x => if x.state = .expecting probe then { x with state := .empty } else x) } })
      exec (.probeRetire probe) s =
        .next (s.answered 771 3 0 [] { s.dev with cell := { unexpected with
          probes := s.dev.cell.probes.set probe ⟨.free, 0, .armA, .nowhere, 0, []⟩ } })))

/-- TIP_QUALIFY of a tip of a seated probe whose arm is not in CYCLE, with a probe-environment group that has a value, gives the
tip the clamped geometry, Tq of the group's value, touch count 0 and QUALIFIED; a DEFINED or SUSPECT probe becomes IN_SERVICE; the
other tips stay. A box that would leave the arm's envelope empty is TOO_LARGE (R98, R99, R100). The bay test is then made again
(R172): without a running arm, a last sample or a missing bay it changes nothing; with a missing bay it sets the arm's latch with the
lowest missing bay and then the other arm's with the lowest missing bay that the other holds; a latch that is clear takes its cause and
the change in CYCLE of its arm is aborted with cause STOP, a set one stays as it is (R169, R171). The model's own: log entries 9 and
12. -/
def Obligations.TipQualifyQualifiesOneTip : Prop :=
  (∀ (probe tip : Nat) (radius : Int) (offset : Point) (old : Tip) (v : Int) (s : State), s.takes 12 → 1 ≤ probe → probe ≤ 40 → tip ≤ 5 →
    let p := s.dev.cell.probe probe
    let g := (s.dev.cell.arm p.home).groups.env
    nth p.tips tip = some old → (p.state = .defined ∨ p.state = .inService ∨ p.state = .suspect) → p.location = .seated →
    (s.dev.cell.arm p.home).seq.state.inCycle = false → g ≠ 0 → (s.dev.group g).state ≠ .empty → (s.dev.group g).value = some v →
    let off (x : Int) := max (-5000000) (min 5000000 x)
    let made : TipGeometry := ⟨⟨off offset.x, off offset.y, off offset.z⟩, max 0 (min radius 100000)⟩
    let r := { p with
      state := ProbeState.inService
      tips := changeNth p.tips tip (fun _ => ⟨made.offset, made.radius, .qualified, some v, 0⟩) }
    ((effectiveEnvelope (s.dev.cell.arm p.home).settings r.box).emptyOnAxis = true →
      exec (.tipQualify probe tip offset radius) s = .next (s.answered 770 12 13 [] s.dev)) ∧
    ((effectiveEnvelope (s.dev.cell.arm p.home).settings r.box).emptyOnAxis = false →
      exec (.tipQualify probe tip offset radius) s =
        .next (s.answered 770 12 (if made = ⟨offset, radius⟩ then 0 else 1)
          (word2 v ++ word (s.dev.group g).state.number ++ boxWords r.box)
          { s.dev with cell := Cell.retest { s.dev.cell with probes := s.dev.cell.probes.set probe r } p.home }))) ∧
  (∀ (c : Cell) (a : ArmId), (c.mode a ≠ .run ∨ (c.arm a).lastSample = none ∨
    ∃ u, (c.arm a).lastSample = some u ∧ c.missingAt a u = []) → c.retest a = c) ∧
  (∀ (c : Cell) (a : ArmId) (u : Point) (k : Nat), c.mode a = .run → (c.arm a).lastSample = some u →
    let missing := c.missingAt a u
    let stop (x : Cell) (b : ArmId) (cause : StopCause) : Cell :=
      if (x.arm b).stop = none then (x.latchStop b cause).abort b .stop else x
    missing.head? = some k →
    ((∀ j ∈ missing, c.bays.holder j ≠ some a.other) → c.retest a = stop c a (.bay k a)) ∧
    (∀ j ∈ missing, c.bays.holder j = some a.other → (∀ n ∈ missing, n < j → c.bays.holder n ≠ some a.other) →
      c.retest a = stop (stop c a (.bay k a)) a.other (.bay j a)))

/-- REPORT_HIT of a running arm with a seated probe makes every tip SUSPECT, and the probe unless it is RETIRING, keeping offsets,
radii, Tq and touch counts; PROBE_SUSPECT is added and the probe number answered. With NONE or UNKNOWN seated it is NO_PROBE
(R106). The model's own: log entry 5. -/
def Obligations.ReportHitMakesTheProbeSuspect : Prop :=
  ∀ (a : ArmId) (tag : Nat) (s : State), s.serves a (.reportHit tag) →
    let c := s.atService a
    (∀ p, (s.dev.cell.arm a).seq.seated = .probe p →
      let r := s.dev.cell.probe p
      exec (.reportHit a tag) s =
        .next (s.withCell
          ((({ c with probes := c.probes.set p { r with
              tips := r.tips.map (fun t => { t with state := .suspect })
              state := if r.state = .defined ∨ r.state = .inService then .suspect else r.state } } : Cell).addNotice
            (.probeSuspect p)).handOver a (.shortResponse .reportHit tag .ok p 0)))) ∧
    ((s.dev.cell.arm a).seq.seated = .noProbe ∨ (s.dev.cell.arm a).seq.seated = .unknown →
      exec (.reportHit a tag) s = .next (s.withCell (c.handOver a (.shortResponse .reportHit tag .noProbe 0 0))))

/-! ### Racks and their lines (R111 to R121) -/

/-- PORT_CONFIG of an OFF arm with an IDLE sequencer, no removed port being in use, sets the clamped parameters; a kept port keeps
its state, levels and filters and takes its new approach box; an added port takes its levels from the lines, UNKNOWN if OCCUPIED
and EMPTY otherwise (R112). The model's own choices: that a kept port keeps its running filters and that a running mask runs on, where
R112 speaks of state and taken levels alone (log entry 16), and the empty body (11). -/
def Obligations.PortConfigKeepsAndAddsPorts : Prop :=
  ∀ (arm : Nat) (boxes : List Box) (q : PortParams) (a : ArmId) (s : State), s.takes (18 + 12 * boxes.length) →
    armOfCode arm = some a → boxes.length ≤ 10 → s.dev.cell.mode a = .off → (s.dev.cell.arm a).seq.state = .idle →
    let old := (s.dev.cell.arm a).rack.ports
    (∀ i p, boxes.length ≤ i → old[i]? = some p → p.state = .empty ∨ p.state = .unknown ∨ p.state = .disabled) →
    let params : PortParams :=
      ⟨min q.filterTime 100, min q.maskTime 500, q.stepLimits.map (fun t => min (max t 100) 60000),
        min (max q.engageTime 50) 2000, min q.learning 3, min (max q.slowFactor 16) 64⟩
    ∃ ports : List Port,
      ports.length = boxes.length ∧
      (∀ i box, boxes[i]? = some box →
        (∀ p, old[i]? = some p → ports[i]? = some { p with box := box }) ∧
        (old[i]? = none →
          let l := (s.dev.cell.arm a).rack.lines.get (i + 1) ⟨false, false⟩
          ports[i]? = some ⟨if l.occupied then .unknown else .empty, box, l.occupied, l.head, none, none⟩)) ∧
      exec (.portConfig arm boxes.length boxes q) s =
        .next (s.answered 258 (18 + 12 * boxes.length) (if params = q then 0 else 1) []
          (s.dev.onCell (fun c => c.modArm a (fun m => { m with rack := { m.rack with ports := ports, params := params } }))))

/-- EXPECT of an OUT probe of the arm at an EMPTY or EXPECTING port makes that port EXPECTING it and no other; PORT_DISABLE takes
an EMPTY or UNKNOWN port out of service; PORT_ENABLE brings a DISABLED one back by its OCCUPIED level (R118, R120). The ports are
plan ports of no change: the sequencer is IDLE. The model's own: log entry 11. -/
def Obligations.ExpectPortDisablePortEnable : Prop :=
  ∀ (arm k : Nat) (a : ArmId) (port : Port) (s : State), armOfCode arm = some a → s.dev.cell.port? a k = some port →
    (s.dev.cell.arm a).seq.state = .idle →
    let put (f : List Port → List Port) := s.dev.onCell (fun c => c.modArm a (fun m =>
      { m with rack := { m.rack with ports := f m.rack.ports } }))
    let become (st : PortState) (l : List Port) := changeNth l k (fun x => { x with state := st })
    (s.takes 5 → ∀ p, 1 ≤ p → p ≤ 40 → (s.dev.cell.probe p).state ≠ .free → (s.dev.cell.probe p).state ≠ .retiring →
      (s.dev.cell.probe p).home = a → (s.dev.cell.probe p).location = .out →
      (port.state = .empty ∨ ∃ x, port.state = .expecting x) →
      exec (.expect arm k p) s =
        .next (s.answered 772 5 0 [] (put (fun l => become (.expecting p)
          (l.map (fun x => if x.state = .expecting p then { x with state := .empty } else x)))))) ∧
    (s.takes 5 → (∃ x, port.state = .expecting x) → exec (.expect arm k 0) s = .next (s.answered 772 5 0 [] (put (become .empty)))) ∧
    (s.takes 4 → port.state = .empty ∨ port.state = .unknown →
      exec (.portDisable arm k) s = .next (s.answered 773 4 0 [] (put (become .disabled)))) ∧
    (s.takes 4 → port.state = .disabled →
      exec (.portEnable arm k) s =
        .next (s.answered 774 4 0 [] (put (become (if port.occupied then .unknown else .empty))))) ∧
    (s.takes 4 → port.state ≠ .disabled → exec (.portEnable arm k) s = .next (s.answered 774 4 8 [] s.dev))

/-- The lines of the ports. A change of a line's level: a port that is not configured and a line under a mask follow the pin alone; a
line that returns to its taken level stops its filter; another starts it with the filter time, and with filter time 0 is taken at once,
as at the expiry of a filter. The expiry takes the present level; a level that differs from the taken one is dispatched. A DISABLED
port's taken level changes alone. A port outside the plan, or of an IDLE sequencer, has a manual event: OCCUPIED by the table of R116,
and HEAD set sets a clear stop latch with cause RACK, which aborts a change in CYCLE with cause STOP. At a plan port in CHANGE_FAULT
OCCUPIED does nothing more and HEAD set sets the latch. (A plan port in CYCLE: EventsDriveTheStepsOfAChange and AbortsEndTheChange.) The
end of a mask takes each line that differs, in ascending port number and OCCUPIED before HEAD. A probe that goes OUT is FREE with its
reset values if it was RETIRING, and a port of its home arm EXPECTING it becomes EMPTY (R109, R113 to R117). The model's own: log entries
4, 12 and 16. -/
def Obligations.LinesAreFilteredTakenAndDispatched : Prop :=
  let onRack (a : ArmId) (f : Rack → Rack) (c : Cell) : Cell := c.modArm a (fun m => { m with rack := f m.rack })
  let onPort (a : ArmId) (k : Nat) (f : Port → Port) : Cell → Cell :=
    onRack a (fun r => { r with ports := changeNth r.ports k f })
  let levelOf (line : PortLine) (l : PortLevels) : Bool := match line with | .occupied => l.occupied | .head => l.head
  let takenOf (line : PortLine) (y : Port) : Bool := match line with | .occupied => y.occupied | .head => y.head
  let timerOf (line : PortLine) (y : Port) : Timer := match line with | .occupied => y.occupiedFilter | .head => y.headFilter
  let filter (line : PortLine) (t : Timer) (y : Port) : Port :=
    match line with | .occupied => { y with occupiedFilter := t } | .head => { y with headFilter := t }
  let take (line : PortLine) (level : Bool) (y : Port) : Port :=
    match line with | .occupied => { y with occupied := level, occupiedFilter := none } | .head => { y with head := level, headFilter := none }
  let stop (a : ArmId) (k : Nat) (c : Cell) : Cell :=
    if (c.arm a).stop = none then (c.latchStop a (.rack k)).abort a .stop else c
  let lines (n : Nat) : List (Nat × PortLine) := (List.range n).flatMap (fun i => [(i + 1, .occupied), (i + 1, .head)])
  (∀ (a : ArmId) (k : Nat) (line : PortLine) (s : State), s.dev.link.held = false →
    let c := s.dev.cell
    let r := (c.arm a).rack
    let pin := r.lines.get k ⟨false, false⟩
    (∀ level,
      let pinned := onRack a (fun x => { x with
        lines := x.lines.set k (match line with | .occupied => { pin with occupied := level } | .head => { pin with head := level }) }) c
      let change := exec (.portLineChange a k line level)
      (levelOf line pin = level → change s = .next s) ∧
      (levelOf line pin ≠ level →
        (c.port? a k = none ∨ r.maskTimer.isSome = true → change s = .next (s.withCell pinned)) ∧
        ∀ port, c.port? a k = some port → r.maskTimer = none →
          (takenOf line port = level → change s = .next (s.withCell (onPort a k (filter line none) pinned))) ∧
          (takenOf line port ≠ level → r.params.filterTime ≠ 0 →
            change s = .next (s.withCell (onPort a k (filter line (some r.params.filterTime)) pinned))) ∧
          (takenOf line port ≠ level → r.params.filterTime = 0 →
            ∃ t, change s = .next t ∧
              exec (.filterExpiry a k line) (s.withCell (onPort a k (filter line (some 0)) pinned)) = .next t))) ∧
    (c.port? a k = none → exec (.filterExpiry a k line) s = .next s) ∧
    (∀ port, c.port? a k = some port →
      (timerOf line port = none → exec (.filterExpiry a k line) s = .next s) ∧
      ((timerOf line port).isSome = true → exec (.filterExpiry a k line) s = .next (s.withCell (c.takeLine a k line)))) ∧
    (r.maskTimer = none → exec (.maskEnd a) s = .next s) ∧
    (r.maskTimer.isSome = true →
      let differs (x : Nat × PortLine) : Bool := match nth r.ports x.1 with
        | none => false
        | some y => takenOf x.2 y != levelOf x.2 (r.lines.get x.1 ⟨false, false⟩)
      exec (.maskEnd a) s = .next (s.withCell
        (((lines r.ports.length).filter differs).foldl (fun n x => n.takeLine a x.1 x.2)
          (onRack a (fun x => { x with maskTimer := none }) c))))) ∧
  (∀ (a : ArmId) (k : Nat) (line : PortLine) (c : Cell) (port : Port), c.port? a k = some port →
    let state := (c.arm a).seq.state
    let now := levelOf line ((c.arm a).rack.lines.get k ⟨false, false⟩)
    let taken := onPort a k (take line now) c
    let named (p : Plan) : Prop := p.drop = some k ∨ p.pick = some k
    (takenOf line port = now ∨ port.state = .disabled → c.takeLine a k line = taken) ∧
    (takenOf line port ≠ now → port.state ≠ .disabled → state = .idle ∨ (∃ p, state.plan? = some p ∧ ¬named p) →
      c.takeLine a k line = match line with
        | .occupied => taken.manualOccupied a k now
        | .head => if now then stop a k taken else taken) ∧
    (∀ cause step p, takenOf line port ≠ now → port.state ≠ .disabled → state = .changeFault cause step p → named p →
      c.takeLine a k line = if line = .head ∧ now = true then stop a k taken else taken)) ∧
  (∀ (a : ArmId) (k : Nat) (c : Cell) (port : Port), c.port? a k = some port →
    let become (st : PortState) : Cell := onPort a k (fun y => { y with state := st }) c
    c.manualOccupied a k true = (match port.state with
      | .empty | .vacant _ => (become .unknown).addNotice (.portMismatch a k)
      | .expecting p => { become (.holding p) with probes := c.probes.set p { c.probe p with location := .rack k } }
      | .holding _ | .unknown | .disabled => c) ∧
    c.manualOccupied a k false = (match port.state with
      | .holding p => ((become .empty).probeOut p).addNotice (.probeRemoved p)
      | .unknown => become .empty
      | .empty | .expecting _ | .vacant _ | .disabled => c)) ∧
  ∀ (p : Nat) (c : Cell),
    ((c.probe p).state ≠ .retiring →
      c.probeOut p = { c with probes := c.probes.set p { c.probe p with location := .out } }) ∧
    ((c.probe p).state = .retiring →
      c.probeOut p =
        { onRack (c.probe p).home (fun r =>
            { r with ports := r.ports.map (fun y => if y.state = .expecting p then { y with state := .empty } else y) }) c with
          probes := c.probes.set p ⟨.free, 0, .armA, .nowhere, 0, []⟩ })

/-! ### Probe changes (R122 to R137) -/

/-- An accepted CHANGE_BEGIN answers ACCEPTED with the drop and pick ports and enters STAGE_IN: with NONE seated and target t in
port k, with a seated probe and no target into its VACANT port or else the lowest EMPTY one, and with a seated probe and a target into
the one and from the other. The plan is made, the step timer
starts with the limit of STAGE_IN, the exit set is emptied, and CHANGE_STEP follows the response (R123, R124, R146). The model's
own: log entry 5. -/
def Obligations.ChangeBeginMakesThePlan : Prop :=
  ∀ (a : ArmId) (tag : Nat) (s : State),
    let m := s.dev.cell.arm a
    let begun (p : Plan) (drop pick : Nat) : State := s.withCell
      ((((s.atService a).handOver a (.shortResponse .changeBegin tag .accepted drop pick)).modArm a (fun x =>
        { x with
          exitSet := []
          seq := { x.seq with state := .cycle .stageIn p, stepTimer := some (m.rack.params.stepLimits.get 1 0) } })).handOver a
        (.changeStep .stageIn m.seq.latch))
    let first (st : PortState) (k : Nat) : Prop := (∃ port, nth m.rack.ports k = some port ∧ port.state = st) ∧
      ∀ j port, j < k → nth m.rack.ports j = some port → port.state ≠ st
    let picksFrom (t k : Nat) : Prop := 1 ≤ t ∧ t ≤ 40 ∧ (s.dev.cell.probe t).home = a ∧ first (.holding t) k ∧
      ((s.dev.cell.probe t).state = .defined ∨ (s.dev.cell.probe t).state = .inService ∨ (s.dev.cell.probe t).state = .suspect)
    let dropsTo (p d : Nat) : Prop := first (.vacant p) d ∨ ((∀ y ∈ m.rack.ports, y.state ≠ .vacant p) ∧ first .empty d)
    m.stop = none → m.seq.state = .idle →
    (∀ t k, s.serves a (.changeBegin tag t) → m.seq.seated = .noProbe → picksFrom t k →
      (s.dev.cell.envelopeFor a (.probe t)).emptyOnAxis = false →
      exec (.changeBegin a tag t) s = .next (begun ⟨none, some t, none, some k, s.dev.cell.ms⟩ 0 k)) ∧
    (∀ p d, s.serves a (.changeBegin tag 0) → m.seq.seated = .probe p → p ≠ 0 → dropsTo p d →
      (s.dev.cell.envelopeFor a .noProbe).emptyOnAxis = false →
      exec (.changeBegin a tag 0) s = .next (begun ⟨some p, none, some d, none, s.dev.cell.ms⟩ d 0)) ∧
    (∀ p d t k, s.serves a (.changeBegin tag t) → m.seq.seated = .probe p → p ≠ t → dropsTo p d → picksFrom t k →
      (s.dev.cell.envelopeFor a .noProbe).emptyOnAxis = false → (s.dev.cell.envelopeFor a (.probe t)).emptyOnAxis = false →
      exec (.changeBegin a tag t) s = .next (begun ⟨some p, some t, some d, some k, s.dev.cell.ms⟩ d k))

/-- Reports, line events and the engage timer drive a change. REPORT_STAGED completes STAGE_IN, and ends the change in STAGE_OUT;
HEAD set completes DROP_DOCK and PICK_DOCK; OCCUPIED set and REPORT_ID 0, in either order, DROP_RELEASE; HEAD clear DROP_DEPART, which
puts the old probe in the drop port and leaves NONE seated; the engage timer deasserts the latch, and REPORT_ID, IGNORED before that,
completes PICK_ENGAGE with the target's code and aborts the change with cause ID_MISMATCH for any other; OCCUPIED clear and HEAD clear,
in either order, PICK_DEPART, which seats the target and leaves its port VACANT for it. Each completion judges the duration against the
ring, adds STEP_SLOW and the duration, enters the plan's next step with its timer and its latch level, starts a mask where the latch
changes, and sends CHANGE_STEP; the exit set stands from step to step, and at the end of the change the boxes that STAGE_OUT opened join
it if the last sample lies inside. After a change of the seated field the bay test is made again. A report that no step awaits is
IGNORED and changes nothing (R114, R125 to R132, R145, R146, R172). The model's own: log entries 4, 5 and 12, and log entry 15: a second
REPORT_ID 0 in one DROP_RELEASE is answered OK too. -/
def Obligations.EventsDriveTheStepsOfAChange : Prop :=
  ∀ (a : ArmId) (tag : Nat) (p : Plan) (s : State),
    let c := s.dev.cell
    let m := c.arm a
    let q := m.seq
    let params := m.rack.params
    let duration := (c.ms - p.entry).toNat
    let ring (step : Step) := q.rings.get step.number []
    let newest (step : Step) := ((ring step).take (2 ^ params.learning)).map Int.ofNat
    let slow (step : Step) : Bool :=
      decide (2 ^ params.learning ≤ (ring step).length) && decide (roundedMean (newest step) * params.slowFactor < (duration : Int) * 16)
    let warned (step : Step) : Cell := if slow step then c.addNotice (.stepSlow a step) else c
    let rings (step : Step) := q.rings.set step.number ((duration :: ring step).take 8)
    let masked (x : Rack) : Rack :=
      if params.maskTime = 0 then x
      else { x with
        maskTimer := some params.maskTime
        ports := x.ports.map (fun y => { y with occupiedFilter := none, headFilter := none }) }
    let entered (step next : Step) (latch : Bool) (port : ArmPort) (n : Cell) : Prop :=
      let z := (n.arm a).seq
      z.state = .cycle next { p with entry := c.ms } ∧ z.stepTimer = some (params.stepLimits.get next.number 0) ∧ z.latch = latch ∧
      z.dropOccupied = false ∧ z.dropId = false ∧ z.pickOccupied = false ∧ z.pickHead = false ∧ z.rings = rings step ∧
      n.notices = (warned step).notices ∧ (n.arm a).port = port.handOver (.changeStep next latch) ∧ (n.arm a).exitSet = m.exitSet ∧
      (n.arm a).rack.maskTimer = (if q.latch = latch then m.rack else masked m.rack).maskTimer ∧
      (q.latch ≠ latch → params.maskTime ≠ 0 → ∀ y ∈ (n.arm a).rack.ports, y.occupiedFilter = none ∧ y.headFilter = none)
    let changed (k : Nat) (line : PortLine) (level : Bool) : Prop :=
      s.dev.link.held = false ∧ m.port.mode = .run ∧ (m.rack.lines.get k ⟨false, false⟩).level line = level ∧
      ∃ x, c.port? a k = some x ∧ x.state ≠ .disabled ∧ (x.filter line).isSome = true ∧ x.taken line = !level
    let marks (k : Nat) (f : Port → Port) (g : Sequencer → Sequencer) : State := s.withCell (c.modArm a (fun x =>
      { x with rack := { x.rack with ports := changeNth x.rack.ports k f }, seq := g x.seq }))
    let answered (kind : ShortKind) (st : Status) : Cell := (s.atService a).handOver a (.shortResponse kind tag st 0 0)
    let pickOrOut : Step := if p.target.isSome then .pickDock else .stageOut
    (s.serves a (.reportStaged tag) → q.state = .cycle .stageIn p →
      ∃ n, exec (.reportStaged a tag) s = .next (s.withCell n) ∧
        entered .stageIn (if p.old.isSome then .dropDock else pickOrOut) q.latch ((answered .reportStaged .ok).arm a).port n) ∧
    (s.serves a (.reportStaged tag) → q.state = .cycle .stageOut p →
      ∃ t, exec (.reportStaged a tag) s = .next t ∧ (t.dev.cell.arm a).seq.state = .idle ∧
        (t.dev.cell.arm a).seq.stepTimer = none ∧ (t.dev.cell.arm a).seq.seated = q.seated ∧
        (t.dev.cell.arm a).seq.rings = rings .stageOut ∧ m.exitsInto .idle (t.dev.cell.arm a).exitSet ∧
        t.dev.cell.notices = ((warned .stageOut).addNotice (.changeDone a)).notices ∧
        (t.dev.cell.arm a).port.transmit =
          m.port.transmit ++ [.shortResponse .reportStaged tag .ok 0 0, .changeEnd (.completed q.seated)]) ∧
    (s.serves a (.reportStaged tag) →
      (q.state.inCycle = false ∨ ∃ step x, q.state = .cycle step x ∧ step ≠ .stageIn ∧ step ≠ .stageOut) →
      exec (.reportStaged a tag) s = .next (s.withCell (answered .reportStaged .ignored))) ∧
    (∀ d, changed d .head true → q.state = .cycle .dropDock p → p.drop = some d →
      ∃ n, exec (.filterExpiry a d .head) s = .next (s.withCell n) ∧ entered .dropDock .dropRelease true m.port n) ∧
    (∀ d, changed d .occupied true → q.state = .cycle .dropRelease p → p.drop = some d → q.dropOccupied = false →
      (q.dropId = false →
        exec (.filterExpiry a d .occupied) s = .next (marks d (fun y => { y with occupied := true, occupiedFilter := none })
          (fun z => { z with dropOccupied := true }))) ∧
      (q.dropId = true →
        ∃ n, exec (.filterExpiry a d .occupied) s = .next (s.withCell n) ∧ entered .dropRelease .dropDepart false m.port n)) ∧
    (s.serves a (.reportId tag 0) → q.state = .cycle .dropRelease p →
      (q.dropOccupied = false →
        exec (.reportId a tag 0) s = .next (s.withCell ((answered .reportId .ok).modArm a (fun x =>
          { x with seq := { x.seq with dropId := true } })))) ∧
      (q.dropOccupied = true →
        ∃ n, exec (.reportId a tag 0) s = .next (s.withCell n) ∧
          entered .dropRelease .dropDepart false ((answered .reportId .ok).arm a).port n)) ∧
    (∀ d old, changed d .head false → q.state = .cycle .dropDepart p → p.drop = some d → p.old = some old → 1 ≤ old → old ≤ 40 →
      ∃ n, exec (.filterExpiry a d .head) s = .next (s.withCell (n.retest a)) ∧
        entered .dropDepart pickOrOut q.latch m.port n ∧ (n.arm a).seq.seated = .noProbe ∧
        (n.port? a d).map (fun y => y.state) = some (.holding old) ∧ n.probe old = { c.probe old with location := .rack d }) ∧
    (∀ k, changed k .head true → q.state = .cycle .pickDock p → p.pick = some k →
      ∃ n, exec (.filterExpiry a k .head) s = .next (s.withCell n) ∧ entered .pickDock .pickEngage true m.port n ∧
        (n.arm a).seq.engage = true ∧ (n.arm a).seq.engageTimer = some params.engageTime) ∧
    (s.dev.link.held = false → m.port.mode = .run → q.state = .cycle .pickEngage p → q.engageTimer.isSome = true → q.latch = true →
      exec (.engageTimerExpiry a) s =
        .next (s.withCell ((c.modArm a (fun x =>
          { x with rack := masked x.rack, seq := { x.seq with engageTimer := none, engage := false, latch := false } })).handOver a
            (.changeStep .pickEngage false)))) ∧
    (∀ code, s.serves a (.reportId tag code) →
      ((q.state = .cycle .pickEngage p ∧ (q.engage = true ∨ code = 0)) ∨ (q.state = .cycle .dropRelease p ∧ code ≠ 0) ∨
        q.state.inCycle = false ∨ ∃ step x, q.state = .cycle step x ∧ step ≠ .dropRelease ∧ step ≠ .pickEngage) →
      exec (.reportId a tag code) s = .next (s.withCell (answered .reportId .ignored))) ∧
    (∀ code target, s.serves a (.reportId tag code) → q.state = .cycle .pickEngage p → q.engage = false → code ≠ 0 →
      p.target = some target →
      (code = (c.probe target).code →
        ∃ n, exec (.reportId a tag code) s = .next (s.withCell n) ∧
          entered .pickEngage .pickDepart q.latch ((answered .reportId .ok).arm a).port n) ∧
      (code ≠ (c.probe target).code →
        exec (.reportId a tag code) s = .next (s.withCell ((answered .reportId .ok).abort a .idMismatch)) ∧
        (((answered .reportId .ok).abort a .idMismatch).arm a).seq.state = .changeFault .idMismatch .pickEngage p)) ∧
    (∀ k target, q.state = .cycle .pickDepart p → p.pick = some k → p.target = some target → 1 ≤ target → target ≤ 40 →
      let seats (line : PortLine) : Prop :=
        ∃ n, exec (.filterExpiry a k line) s = .next (s.withCell (n.retest a)) ∧
          entered .pickDepart .stageOut q.latch m.port n ∧ (n.arm a).seq.seated = .probe target ∧
          (n.port? a k).map (fun y => y.state) = some (.vacant target) ∧
          n.probe target = { c.probe target with location := .seated }
      (changed k .occupied false → q.pickOccupied = false → q.pickHead = false →
        exec (.filterExpiry a k .occupied) s = .next (marks k (fun y => { y with occupied := false, occupiedFilter := none })
          (fun z => { z with pickOccupied := true }))) ∧
      (changed k .occupied false → q.pickOccupied = false → q.pickHead = true → seats .occupied) ∧
      (changed k .head false → q.pickHead = false → q.pickOccupied = false →
        exec (.filterExpiry a k .head) s = .next (marks k (fun y => { y with head := false, headFilter := none })
          (fun z => { z with pickHead := true }))) ∧
      (changed k .head false → q.pickHead = false → q.pickOccupied = true → seats .head))

/-- An abort of a change in CYCLE: at the expiry of the step timer, CHANGE_ABORT on the cell link, CHANGE_ABORT on the arm link, with cause
SENSOR at a change taken on a plan port that the step does not await, with cause STOP when the arm's stop latch is set (here by HEAD at a
port outside the plan), and with cause LINK when the arm leaves RUN. The timers and the progress end, CHANGE_FAULT is noted, CHANGE_END
is sent unless the cause is LINK, and the latch output stands. Where the latch has acted the sequencer goes to CHANGE_FAULT: the seated
field and the plan ports UNKNOWN, the plan probes UNRESOLVED, the exit set as it stands, and the bay test is made again. Elsewhere it goes
to IDLE: the closing boxes around the last sample join the exit set, and each former plan port, in ascending number, has a disagreeing
OCCUPIED level dispatched by R116 and a set HEAD level sets the stop latch. Without a change in CYCLE an abort changes nothing, and the two
commands are BAD_STATE (R131, R133 to R135, R145, R146, R165, R172, R187). The model's own: log entries 4, 5, 6 and 12, and log entry 11:
the empty bodies of the OK answers of CHANGE_ABORT and ARM_DISABLE. -/
def Obligations.AbortsEndTheChange : Prop :=
  (∀ (a : ArmId) (cause : AbortCause) (c : Cell), (c.arm a).seq.state.inCycle = false → c.abort a cause = c) ∧
  (∀ (a : ArmId) (cause : AbortCause) (step : Step) (p : Plan) (c : Cell), (c.arm a).seq.state = .cycle step p →
    let m := c.arm a
    let named (k : Nat) : Prop := p.drop = some k ∨ p.pick = some k
    let ends (st : SeqState) (seated : Seated) (exits : List Nat) (ports : List Port) (probes : Table Probe 40) : Cell :=
      let n := (({ c with probes := probes } : Cell).modArm a (fun x => { x with
        exitSet := exits
        rack := { x.rack with ports := ports }
        seq := { x.seq with
          state := st, seated := seated, stepTimer := none, engageTimer := none, engage := false
          dropOccupied := false, dropId := false, pickOccupied := false, pickHead := false } })).addNotice (.changeFault a cause step)
      if cause = .link ∨ m.port.mode ≠ .run then n else n.handOver a (.changeEnd (.aborted cause step))
    let returned (n : Cell) (k : Nat) : Cell := match n.port? a k with
      | none => n
      | some y =>
        let occupied := match y.state with | .holding _ | .unknown => true | .empty | .expecting _ | .vacant _ | .disabled => false
        let n := if y.state ≠ .disabled ∧ occupied ≠ y.occupied then n.manualOccupied a k y.occupied else n
        if y.head then n.latchStop a (.rack k) else n
    (step = .dropRelease ∨ step = .dropDepart ∨ step = .pickEngage ∨ step = .pickDepart →
      ∃ (ports : List Port) (probes : Table Probe 40),
        (ports.length = m.rack.ports.length ∧ ∀ k y, nth m.rack.ports k = some y →
          (named k → nth ports k = some { y with state := .unknown }) ∧ (¬named k → nth ports k = some y)) ∧
        (∀ k, 1 ≤ k → k ≤ 40 →
          (p.old = some k ∨ p.target = some k → probes.get k Probe.reset = { c.probe k with location := .unresolved }) ∧
          (p.old ≠ some k → p.target ≠ some k → probes.get k Probe.reset = c.probe k)) ∧
        c.abort a cause = (ends (.changeFault cause step p) .unknown m.exitSet ports probes).retest a) ∧
    (step = .stageIn ∨ step = .dropDock ∨ step = .pickDock ∨ step = .stageOut →
      ∃ exits, m.exitsInto .idle exits ∧
        ∀ l : List Nat, l.Pairwise (· < ·) → (∀ k, k ∈ l ↔ named k) →
          c.abort a cause = l.foldl returned (ends .idle m.seq.seated exits m.rack.ports c.probes))) ∧
  ∀ (a : ArmId) (tag arm : Nat) (step : Step) (p : Plan) (s : State), armOfCode arm = some a →
    let c := s.dev.cell
    let m := c.arm a
    let ended (cause : AbortCause) (t : State) : Prop :=
      let q := (t.dev.cell.arm a).seq
      let noted := bumpEntry (.changeFault a cause step) (c.notices.get 12 none)
      q.stepTimer = none ∧ q.engageTimer = none ∧ q.engage = false ∧ q.latch = m.seq.latch ∧
      (∃ e, t.dev.cell.notices.get 12 none = some e ∧ e.notice = noted.notice ∧ noted.count ≤ e.count) ∧
      (if step = .dropRelease ∨ step = .dropDepart ∨ step = .pickEngage ∨ step = .pickDepart then
        q.state = .changeFault cause step p ∧ q.seated = .unknown
      else q.state = .idle ∧ q.seated = m.seq.seated)
    let answers (cause : AbortCause) (o : Host.Outcome State Fault Refusal) (t : State) : Prop := o = .next t ∧ ended cause t
    let awaited (k : Nat) (line : PortLine) (level : Bool) : Prop := match step, line, level with
      | .dropDock, .head, true => p.drop = some k
      | .dropRelease, .occupied, true => p.drop = some k ∧ m.seq.dropOccupied = false
      | .dropDepart, .head, false => p.drop = some k
      | .pickDock, .head, true => p.pick = some k
      | .pickDepart, .occupied, false => p.pick = some k ∧ m.seq.pickOccupied = false
      | .pickDepart, .head, false => p.pick = some k ∧ m.seq.pickHead = false
      | _, _, _ => False
    let left : Cell := (c.modArm a (fun x => { x with wait := none, port := { x.port with mode := .off, phase := none } })).abort a .link
    let rested : Cell := left.modArm a (fun x => { x with
      lastSample := none, exitSet := []
      port := { x.port with queue := [], transmit := x.port.transmit.take 1, silenceTimer := none, phaseTimer := none } })
    (m.seq.state = .cycle step p → s.dev.link.held = false → ∀ k line port, c.port? a k = some port →
      port.state ≠ .disabled → (port.filter line).isSome = true →
      let level := (m.rack.lines.get k ⟨false, false⟩).level line
      let taken := c.modArm a (fun x => { x with rack := { x.rack with ports := changeNth x.rack.ports k (fun y =>
        match line with
        | .occupied => { y with occupied := level, occupiedFilter := none }
        | .head => { y with head := level, headFilter := none }) } })
      port.taken line ≠ level →
      ((p.drop = some k ∨ p.pick = some k) → ¬awaited k line level →
        answers .sensor (exec (.filterExpiry a k line) s) (s.withCell (taken.abort a .sensor))) ∧
      (p.drop ≠ some k → p.pick ≠ some k → line = .head → level = true → m.stop = none →
        answers .stop (exec (.filterExpiry a k line) s) (s.withCell ((taken.latchStop a (.rack k)).abort a .stop)) ∧
        ((((taken.latchStop a (.rack k)).abort a .stop)).arm a).stop = some (.rack k))) ∧
    (m.seq.state = .cycle step p → s.dev.link.held = false → m.seq.stepTimer.isSome = true →
      answers .stepTimeout (exec (.stepTimerExpiry a) s)
        (s.withCell ((c.modArm a (fun x => { x with seq := { x.seq with stepTimer := none } })).abort a .stepTimeout))) ∧
    (m.seq.state = .cycle step p → s.takes 3 →
      answers .cellAbort (exec (.changeAbortCell arm) s) (s.answered 1032 3 0 [] { s.dev with cell := c.abort a .cellAbort })) ∧
    (m.seq.state = .cycle step p → s.serves a (.changeAbort tag) →
      answers .armAbort (exec (.changeAbortArm a tag) s)
        (s.withCell (((s.atService a).handOver a (.shortResponse .changeAbort tag .ok 0 0)).abort a .armAbort))) ∧
    (m.seq.state = .cycle step p → s.dev.link.held = false → m.port.mode = .run → m.port.silenceTimer.isSome = true →
      answers .link (exec (.silenceTimerExpiry a) s) (s.withCell (rested.addNotice (.armLink a .silence)))) ∧
    (m.seq.state = .cycle step p → s.takes 3 → m.port.mode = .run →
      answers .link (exec (.armDisable arm) s) (s.answered 1026 3 0 [] { s.dev with cell := rested })) ∧
    (m.seq.state.inCycle = false → s.takes 3 →
      exec (.changeAbortCell arm) s = .next (s.answered 1032 3 8 [] s.dev)) ∧
    (m.seq.state.inCycle = false → s.serves a (.changeAbort tag) →
      exec (.changeAbortArm a tag) s =
        .next (s.withCell ((s.atService a).handOver a (.shortResponse .changeAbort tag .badState 0 0))))

/-- CHANGE_RESOLVE is checked in order: an unknown arm or a number above 40 is BAD_ARG; a sequencer not in CHANGE_FAULT or a STARTING arm
BAD_STATE; an entry for a port that the plan does not name, a probe that is not the plan's, or one named twice BAD_ARG; an entry that
disagrees with the port's taken OCCUPIED level DISAGREES; and in RUN an empty envelope for the box of the resolved seated field
TOO_LARGE. An accepted one, with the arm OFF or RUN and whatever the plan names, answers OK: a named port is HOLDING its probe, which is
in that RACK; the probe seated is SEATED and the port that it came from VACANT for it; another plan port is EMPTY; a plan probe named
nowhere goes OUT, or FREE; the latch output is deasserted, with a mask if it was asserted; the sequencer is IDLE, the closing boxes
around the last sample join the exit set, and the bay test is made again (R109, R114, R137, R145, R146, R172). The model's own: log entry
12, and log entry 11: the empty body of the OK answer. -/
def Obligations.ChangeResolveSetsTheRecords : Prop :=
  (∀ (arm seated drop pick : Nat) (s : State), s.takes 6 → armOfCode arm = none →
    exec (.changeResolve arm seated drop pick) s = .next (s.answered 1033 6 7 [] s.dev)) ∧
  ∀ (arm seated drop pick : Nat) (a : ArmId) (s : State), s.takes 6 → armOfCode arm = some a →
    let c := s.dev.cell
    let m := c.arm a
    let answers (status : Nat) (d : Device) : Prop :=
      exec (.changeResolve arm seated drop pick) s = .next (s.answered 1033 6 status [] d)
    let high : Prop := 40 < seated ∨ 40 < drop ∨ 40 < pick
    (high → answers 7 s.dev) ∧
    (¬high → ((∀ cause step p, m.seq.state ≠ .changeFault cause step p) ∨ m.port.mode = .starting) → answers 8 s.dev) ∧
    ∀ cause step p, ¬high → m.seq.state = .changeFault cause step p → m.port.mode ≠ .starting →
      let known (n : Nat) : Prop := n = 0 ∨ p.old = some n ∨ p.target = some n
      let misnamed : Prop := (drop ≠ 0 ∧ p.drop = none) ∨ (pick ≠ 0 ∧ p.pick = none) ∨ ¬known seated ∨ ¬known drop ∨ ¬known pick ∨
        (seated ≠ 0 ∧ (seated = drop ∨ seated = pick)) ∨ (drop ≠ 0 ∧ drop = pick)
      let differs (port : Option Nat) (entry : Nat) : Prop :=
        ∃ k y, port = some k ∧ c.port? a k = some y ∧ (y.occupied = true ↔ entry = 0)
      let seat : Seated := if seated = 0 then .noProbe else .probe seated
      let tooLarge : Prop := m.port.mode = .run ∧ (c.envelopeFor a seat).emptyOnAxis = true
      let left (entry : Nat) (origin : Option Nat) : PortState :=
        if entry ≠ 0 then .holding entry else if seated ≠ 0 ∧ origin = some seated then .vacant seated else .empty
      let resolved (k : Nat) (old : PortState) : PortState :=
        if p.pick = some k then left pick p.target else if p.drop = some k then left drop p.old else old
      let gone (x : Option Nat) (n : Cell) : Cell := match x with
        | none => n
        | some q => if q = seated ∨ q = drop ∨ q = pick then n else n.probeOut q
      (misnamed → answers 7 s.dev) ∧
      (¬misnamed → (differs p.drop drop ∨ differs p.pick pick) → answers 30 s.dev) ∧
      (¬misnamed → ¬differs p.drop drop → ¬differs p.pick pick → tooLarge → answers 13 s.dev) ∧
      (¬misnamed → ¬differs p.drop drop → ¬differs p.pick pick → ¬tooLarge →
        ∃ (ports : List Port) (probes : Table Probe 40) (exits : List Nat),
          (ports.length = m.rack.ports.length ∧ ∀ k y, nth m.rack.ports k = some y →
            nth ports k = some { y with state := resolved k y.state }) ∧
          (∀ n, 1 ≤ n → n ≤ 40 →
            let lies (l : Location) : Prop := probes.get n Probe.reset = { c.probe n with location := l }
            (n = seated → lies .seated) ∧ (n = pick → ∀ k, p.pick = some k → lies (.rack k)) ∧
            (n = drop → ∀ k, p.drop = some k → lies (.rack k)) ∧
            (n ≠ seated → n ≠ drop → n ≠ pick → probes.get n Probe.reset = c.probe n)) ∧
          m.exitsInto .idle exits ∧
          let set := ({ c with probes := probes } : Cell).modArm a (fun x => { x with
            rack := { x.rack with ports := ports }, seq := { x.seq with seated := seat } })
          let done := (gone p.target (gone p.old set)).modArm a (fun x => { x with
            exitSet := exits
            seq := { x.seq with latch := false, state := .idle }
            rack := if m.seq.latch = false ∨ m.rack.params.maskTime = 0 then x.rack
              else { x.rack with
                maskTimer := some m.rack.params.maskTime
                ports := x.rack.ports.map (fun y => { y with occupiedFilter := none, headFilter := none }) } })
          answers 0 { s.dev with cell := done.retest a })

/-! ### The envelope unit (R139 to R153) -/

/-- ARM_CONFIG of an OFF arm with uncrossed bounds stores the clamped settings, sets the configured mark and answers the settings
and the effective envelope; an envelope empty on an axis for the unknown-probe box or for the box in use is TOO_LARGE. The
envelope has the bounds max(C_lo, V_lo − bmin) and min(C_hi, V_hi − bmax) on each axis (R139, R140, R142). The model's own choices: the
layout of the response (log entry 9), and that its envelope is saturated to 32 bits without a flag (log entry 30). -/
def Obligations.ArmConfigStoresTheSettings : Prop :=
  (∀ (arm : Nat) (x : ArmSettings) (a : ArmId) (s : State), s.takes 67 → armOfCode arm = some a → s.dev.cell.mode a = .off →
    x.carriage.emptyOnAxis = false → x.volume.emptyOnAxis = false → x.unknownBox.emptyOnAxis = false →
    x.staging.emptyOnAxis = false →
    let b (v : Int) := max (-5100000) (min 5100000 v)
    let y : ArmSettings := { x with
      unknownBox := ⟨⟨b x.unknownBox.lo.x, b x.unknownBox.lo.y, b x.unknownBox.lo.z⟩,
        ⟨b x.unknownBox.hi.x, b x.unknownBox.hi.y, b x.unknownBox.hi.z⟩⟩
      scaleX := ⟨x.scaleX.r, min x.scaleX.alpha 40000⟩
      scaleY := ⟨x.scaleY.r, min x.scaleY.alpha 40000⟩
      scaleZ := ⟨x.scaleZ.r, min x.scaleZ.alpha 40000⟩
      margin := max 0 (min x.margin 1000000)
      silence := min (max x.silence 50) 2000 }
    let used : Box := match (s.dev.cell.arm a).seq.seated with
      | .noProbe => ⟨⟨0, 0, 0⟩, ⟨0, 0, 0⟩⟩
      | .unknown => y.unknownBox
      | .probe p => (s.dev.cell.probe p).box
    if (effectiveEnvelope y y.unknownBox).emptyOnAxis = false ∧ (effectiveEnvelope y used).emptyOnAxis = false then
      exec (.armConfig arm x) s =
        .next (s.answered 257 67 (if y = x then 0 else 1) (settingsWords y ++ boxWords (effectiveEnvelope y used).saturated)
          (s.dev.onCell (fun c => c.modArm a (fun m => { m with settings := y, configured := true }))))
    else exec (.armConfig arm x) s = .next (s.answered 257 67 13 [] s.dev)) ∧
  (∀ (s : ArmSettings) (b : Box),
    effectiveEnvelope s b =
      ⟨⟨max s.carriage.lo.x (s.volume.lo.x - b.lo.x), max s.carriage.lo.y (s.volume.lo.y - b.lo.y),
        max s.carriage.lo.z (s.volume.lo.z - b.lo.z)⟩,
       ⟨min s.carriage.hi.x (s.volume.hi.x - b.hi.x), min s.carriage.hi.y (s.volume.hi.y - b.hi.y),
        min s.carriage.hi.z (s.volume.hi.z - b.hi.z)⟩⟩)

/-- CHECK changes nothing but the transmit list. A set stop latch answers BLOCKED(STOPPED) with the target as received and the latch's
cause: 1 and the box for RACK, 2, the bay and the arm (A 1, B 2) for BAY; without a last sample it is NO_POSITION; otherwise the target is clamped into the envelope, and the answer is BLOCKED(RACK) with the lowest
closed rack box that the swept box overlaps, else BLOCKED(BAY) with the lowest missing bay, else LIMITED or CLEAR (R149 to R153).
The model's own: log entry 5. -/
def Obligations.CheckJudgesTheMove : Prop :=
  ∀ (a : ArmId) (tag : Nat) (t : Point) (s : State), s.serves a (.check tag t) →
    let c := s.dev.cell
    let m := c.arm a
    let e := c.envelope a
    let into (lo hi v : Int) := if v < lo then lo else if hi < v then hi else v
    let q : Point := ⟨into e.lo.x e.hi.x t.x, into e.lo.y e.hi.y t.y, into e.lo.z e.hi.z t.z⟩
    let answers (st : Status) (x : CheckAnswer) : Prop :=
      exec (.check a tag t) s = .next (s.withCell ((s.atService a).handOver a (.checkResponse tag st x)))
    (∀ b, m.stop = some (.rack b) → answers .ok ⟨.blockedStopped, t, false, false, false, 1, b, 0⟩) ∧
    (∀ k n, m.stop = some (.bay k n) → answers .ok ⟨.blockedStopped, t, false, false, false, 2, k, armCode n⟩) ∧
    (m.stop = none → m.lastSample = none → answers .noPosition ⟨.clear, ⟨0, 0, 0⟩, false, false, false, 0, 0, 0⟩) ∧
    (∀ u, m.stop = none → m.lastSample = some u →
      let swept : Box := ⟨⟨min u.x q.x, min u.y q.y, min u.z q.z⟩, ⟨max u.x q.x, max u.y q.y, max u.z q.z⟩⟩
      let closed (b : Nat) : Prop := b ≤ m.rack.ports.length ∧ m.isOpen b = false ∧ ∃ box, m.rackBox b = some box ∧
        box.lo.x ≤ swept.hi.x ∧ swept.lo.x ≤ box.hi.x ∧ box.lo.y ≤ swept.hi.y ∧ swept.lo.y ≤ box.hi.y ∧
        box.lo.z ≤ swept.hi.z ∧ swept.lo.z ≤ box.hi.z
      let missing (k : Nat) : Prop := k < c.bays.holders.length ∧ c.bays.holder k ≠ some a ∧
        m.settings.safeDepth < swept.hi.z + (c.usedBox a).hi.z ∧
        c.bays.origin + k * c.bays.width ≤ swept.hi.x + m.settings.bayOffset + (c.usedBox a).hi.x + m.settings.margin ∧
        swept.lo.x + m.settings.bayOffset + (c.usedBox a).lo.x - m.settings.margin < c.bays.origin + (k + 1) * c.bays.width
      (∀ b, closed b → (∀ j, j < b → ¬closed j) →
        answers .ok ⟨.blockedRack, q, t.x != q.x, t.y != q.y, t.z != q.z, 1, b, 0⟩) ∧
      ((∀ b, ¬closed b) → ∀ k, missing k → (∀ j, j < k → ¬missing j) →
        answers .ok ⟨.blockedBay, q, t.x != q.x, t.y != q.y, t.z != q.z, 2, k, 0⟩) ∧
      ((∀ b, ¬closed b) → (∀ k, ¬missing k) →
        answers .ok ⟨if t = q then .clear else .limited, q, t.x != q.x, t.y != q.y, t.z != q.z, 0, 0, 0⟩))

/-! ### Shared bays and stop latches (R157 to R176) -/

/-- BAY_CONFIG with both arms OFF and no bay held sets up its bays, every one FREE, with the width clamped, and is refused in the
order of its checks otherwise; BAY_CLEAR of an OFF arm frees every bay it holds, the other arm waiting for none, and answers how
many; the expiry of a wait timer empties the slot and hands GRANT with TIMEOUT over, the bay table standing (R158, R164, R168).
The model's own: log entries 4 and 9. -/
def Obligations.BaysAreConfiguredClearedAndTimedOut : Prop :=
  (∀ (count : Nat) (origin width : Int) (s : State), s.takes 7 →
    let w := min (max width 10000) 10000000
    let off := s.dev.cell.mode .armA = .off ∧ s.dev.cell.mode .armB = .off
    let free := ∀ h ∈ s.dev.cell.bays.holders, h = none
    let refused (st : Nat) := exec (.bayConfig count origin width) s = .next (s.answered 259 7 st [] s.dev)
    ((count < 1 ∨ 32 < count) → refused 7) ∧
    (1 ≤ count → count ≤ 32 → ¬off → refused 8) ∧
    (1 ≤ count → count ≤ 32 → off → ¬free → refused 27) ∧
    (1 ≤ count → count ≤ 32 → off → free → 2147483647 < origin + count * w → refused 7) ∧
    (1 ≤ count → count ≤ 32 → off → free → origin + count * w ≤ 2147483647 →
      exec (.bayConfig count origin width) s =
        .next (s.answered 259 7 (if w = width then 0 else 1) (word count ++ word2 origin ++ word2 w)
          { s.dev with cell := { s.dev.cell with bays := ⟨origin, w, List.replicate count none⟩ } }))) ∧
  (∀ (arm : Nat) (a : ArmId) (s : State), s.takes 3 → armOfCode arm = some a →
    let held := s.dev.cell.bays.holders
    (s.dev.cell.mode a ≠ .off → exec (.bayClear arm) s = .next (s.answered 1034 3 8 [] s.dev)) ∧
    (s.dev.cell.mode a = .off → (s.dev.cell.arm a.other).wait = none →
      exec (.bayClear arm) s =
        .next (s.answered 1034 3 0 (word (held.filter (fun h => h == some a)).length)
          { s.dev with cell := { s.dev.cell with bays :=
            { s.dev.cell.bays with holders := held.map (fun h => if h = some a then none else h) } } }))) ∧
  (∀ (a : ArmId) (s : State), s.dev.link.held = false →
    ((s.dev.cell.arm a).wait = none → exec (.waitTimerExpiry a) s = .next s) ∧
    (∀ w, (s.dev.cell.arm a).wait = some w → s.dev.cell.mode a = .run →
      exec (.waitTimerExpiry a) s =
        .next (s.withCell ((s.dev.cell.modArm a (fun m => { m with wait := none })).handOver a
          (.grant w.tag .timeout w.first w.last)))))

/-- RESERVE of a running arm: refused with STOPPED, BAD_ARG or PENDING in this order; otherwise GRANTED with every bay of its
range held by the arm when none is the other arm's; otherwise BUSY with the lowest bay of the other arm for a wait limit of 0,
CONFLICT with the lowest bay of this arm that the other's wait covers, and a wait in the slot, unanswered (R160, R161, R162). The
model's own: log entry 5. -/
def Obligations.ReserveIsGrantedRefusedOrWaits : Prop :=
  ∀ (a : ArmId) (tag first last wait : Nat) (s : State), s.serves a (.reserve tag first last wait) →
    let m := s.dev.cell.arm a
    let b := s.dev.cell.bays
    let range := last < b.holders.length ∧ first ≤ last ∧ wait ≤ 10000
    let others (k : Nat) : Prop := first ≤ k ∧ k ≤ last ∧ b.holder k = some a.other
    let answers (st : Status) (x y : Nat) : Prop :=
      exec (.reserve a tag first last wait) s =
        .next (s.withCell ((s.atService a).handOver a (.shortResponse .reserve tag st x y)))
    (m.stop ≠ none → answers .stopped 0 0) ∧
    (m.stop = none → ¬range → answers .badArg 0 0) ∧
    (m.stop = none → range → m.wait ≠ none → answers .pending 0 0) ∧
    (m.stop = none → range → m.wait = none →
      ((∀ k, ¬others k) →
        ∃ holders : List (Option ArmId), holders.length = b.holders.length ∧
          (∀ k, k < holders.length → holders[k]? = if first ≤ k ∧ k ≤ last then some (some a) else b.holders[k]?) ∧
          exec (.reserve a tag first last wait) s =
            .next (s.withCell ({ s.atService a with bays := { b with holders := holders } }.handOver a
              (.shortResponse .reserve tag .granted first last)))) ∧
      (∀ k, others k → (∀ j, j < k → ¬others j) → wait = 0 → answers .busy k 0) ∧
      ((∃ k, others k) → wait ≠ 0 →
        (∀ w k, (s.dev.cell.arm a.other).wait = some w → w.first ≤ k → k ≤ w.last → b.holder k = some a →
          (∀ j, w.first ≤ j → j < k → b.holder j ≠ some a) → answers .conflict k 0) ∧
        ((∀ w k, (s.dev.cell.arm a.other).wait = some w → w.first ≤ k → k ≤ w.last → b.holder k ≠ some a) →
          exec (.reserve a tag first last wait) s =
            .next (s.withCell ((s.atService a).modArm a (fun x => { x with wait := some ⟨tag, first, last, some wait⟩ }))))))

/-- RELEASE of a running arm: BAD_ARG outside the bays, IN_USE with the lowest bay of the range that its last sample needs;
otherwise OK with the number of bays freed, every bay of the range that it held FREE. A wait of the other arm whose bays are then
all its own or FREE is granted: the bays are held, the slot is empty and GRANT is handed over; a range still blocked waits on
(R163, R167). The model's own: log entry 5. -/
def Obligations.ReleaseFreesBaysAndGrantsTheWait : Prop :=
  ∀ (a : ArmId) (tag first last : Nat) (s : State), s.serves a (.release tag first last) →
    let m := s.dev.cell.arm a
    let b := s.dev.cell.bays
    let range := last < b.holders.length ∧ first ≤ last
    let needs (k : Nat) : Prop := first ≤ k ∧ k ≤ last ∧ ∃ u, m.lastSample = some u ∧ k ∈ s.dev.cell.needs a u
    let answers (st : Status) (x : Nat) : Prop :=
      exec (.release a tag first last) s =
        .next (s.withCell ((s.atService a).handOver a (.shortResponse .release tag st x 0)))
    (¬range → answers .badArg 0) ∧
    (range → ∀ k, needs k → (∀ j, j < k → ¬needs j) → answers .inUse k) ∧
    (range → (∀ k, ¬needs k) →
      let freed := ((List.range' first (last + 1 - first)).filter (fun k => b.holder k == some a)).length
      ∃ rest : Bays, rest.origin = b.origin ∧ rest.width = b.width ∧ rest.holders.length = b.holders.length ∧
        (∀ k, rest.holder k = if first ≤ k ∧ k ≤ last ∧ b.holder k = some a then none else b.holder k) ∧
        let released : Cell := { (s.atService a).handOver a (.shortResponse .release tag .ok freed 0) with bays := rest }
        ((freed = 0 ∨ (s.dev.cell.arm a.other).wait = none ∨
            ∃ w k, (s.dev.cell.arm a.other).wait = some w ∧ w.first ≤ k ∧ k ≤ w.last ∧ rest.holder k = some a) →
          exec (.release a tag first last) s = .next (s.withCell released)) ∧
        (∀ w, freed ≠ 0 → (s.dev.cell.arm a.other).wait = some w → s.dev.cell.mode a.other = .run →
          (∀ k, w.first ≤ k → k ≤ w.last → rest.holder k ≠ some a) →
          ∃ granted : Bays, granted.origin = b.origin ∧ granted.width = b.width ∧
            granted.holders.length = b.holders.length ∧
            (∀ k, k < b.holders.length →
              granted.holder k = if w.first ≤ k ∧ k ≤ w.last then some a.other else rest.holder k) ∧
            exec (.release a tag first last) s =
              .next (s.withCell (({ released with bays := granted }.modArm a.other (fun x => { x with wait := none })).handOver
                a.other (.grant w.tag .granted w.first w.last)))))

/-- STOP_RELEASE is NOT_FAULTED for a clear latch and CAUSE_PRESENT, changing nothing, while the recorded cause holds or the arm's
own last sample lies in a closed rack box or over a bay it does not hold; otherwise it clears the latch. CAUSE_PRESENT carries the
recorded cause while that holds, otherwise the lowest closed rack box, or without one the lowest missing bay. Setting a clear latch
records the cause, hands STOP over to a running arm and adds INTRUSION; a set latch keeps its first cause. The stop output is
asserted exactly while the arm is not RUN or its latch is set (R148, R169, R170, R173, R174). The model's own: log entries 11 and 20, and
log entry 23: the rack box before the bay where the last sample gives both. -/
def Obligations.StopReleaseAndTheStopLatch : Prop :=
  (∀ (arm : Nat) (a : ArmId) (s : State), s.takes 3 → armOfCode arm = some a →
    let c := s.dev.cell
    let m := c.arm a
    let holds : StopCause → Prop
      | .rack b => (∃ port, c.port? a b = some port ∧ port.head = true) ∨
          ∃ u box, m.lastSample = some u ∧ m.rackBox b = some box ∧ box.contains u = true ∧ m.isOpen b = false
      | .bay k n => ∃ u, (c.arm n).lastSample = some u ∧ k ∈ c.missingAt n u
    let stands := ∃ u, m.lastSample = some u ∧ (m.closedBoxesAt u ≠ [] ∨ c.missingAt a u ≠ [])
    let present (kind number causeArm : Nat) : Prop :=
      exec (.stopRelease arm) s = .next (s.answered 1031 3 29 (word kind ++ word number ++ word causeArm) s.dev)
    (m.stop = none → exec (.stopRelease arm) s = .next (s.answered 1031 3 31 [] s.dev)) ∧
    (∀ b, m.stop = some (.rack b) → holds (.rack b) → present 1 b 0) ∧
    (∀ k n, m.stop = some (.bay k n) → holds (.bay k n) → present 2 k (armCode n)) ∧
    (∀ cause u, m.stop = some cause → ¬holds cause → m.lastSample = some u →
      (∀ b ∈ m.closedBoxesAt u, (∀ j ∈ m.closedBoxesAt u, b ≤ j) → present 1 b 0) ∧
      (m.closedBoxesAt u = [] → ∀ k ∈ c.missingAt a u, (∀ j ∈ c.missingAt a u, k ≤ j) → present 2 k (armCode a))) ∧
    (∀ cause, m.stop = some cause → ¬holds cause → ¬stands →
      exec (.stopRelease arm) s =
        .next (s.answered 1031 3 0 [] { s.dev with cell := c.modArm a (fun x => { x with stop := none }) }))) ∧
  (∀ (c : Cell) (a : ArmId) (cause : StopCause),
    ((c.arm a).stop ≠ none → c.latchStop a cause = c) ∧
    ((c.arm a).stop = none →
      let latched := c.modArm a (fun m => { m with stop := some cause })
      c.latchStop a cause =
        (if c.mode a = .run then latched.handOver a (.stop cause) else latched).addNotice (.intrusion a cause)) ∧
    (c.stopOutput a = true ↔ c.mode a ≠ .run ∨ (c.arm a).stop ≠ none))

/-- The bays that a footprint needs, for a width above 0: none when it lies outside the bays, otherwise those from the larger of 0
and floor((f_lo − X0) / w) to the smaller of N − 1 and floor((f_hi − X0) / w) (R159). An arm extended past its safe depth with the
box used misses the bays that its footprint needs and that it does not hold (R143, R159, R171). A MOVE answers first. Where its sample then needs
a bay that the arm does not hold, the arm's latch is set with the lowest missing bay, and the other arm's with the lowest missing bay
that it holds; where it lies in a closed rack box, the arm's latch is set with the lowest such box before the bays are tested, and
keeps that cause; here with no change in CYCLE. In CYCLE a rack intrusion ends the change as well (R28, R147, R169, R171). The model's
own: log entries 5 and 12. -/
def Obligations.SampleOverABayNotHeldSetsTheLatches : Prop :=
  (∀ (b : Bays) (lo hi : Int) (k : Nat), 0 < b.width → lo ≤ hi →
    (k ∈ b.needed lo hi ↔
      (b.origin ≤ hi ∧ lo < b.origin + b.holders.length * b.width) ∧
        max 0 ((lo - b.origin).fdiv b.width) ≤ k ∧ (k : Int) ≤ min (b.holders.length - 1 : Int) ((hi - b.origin).fdiv b.width))) ∧
  (∀ (c : Cell) (a : ArmId) (u : Point) (k : Nat),
    let m := c.arm a
    let box : Box := match m.seq.seated with
      | .noProbe => ⟨⟨0, 0, 0⟩, ⟨0, 0, 0⟩⟩
      | .probe p => (c.probe p).box
      | .unknown => m.settings.unknownBox
    let low := u.x + m.settings.bayOffset + box.lo.x - m.settings.margin
    let high := u.x + m.settings.bayOffset + box.hi.x + m.settings.margin
    (c.missingAt a u).Pairwise (· < ·) ∧
    (k ∈ c.missingAt a u ↔ k ∈ c.bays.needed low high ∧ c.bays.holder k ≠ some a ∧ m.settings.safeDepth < u.z + box.hi.z)) ∧
  (∀ (a : ArmId) (tag : Nat) (u : Point) (k : Nat) (s : State), s.serves a (.correct tag 1 0 u) →
    let m := (s.dev.cell.arm a).takeSample u
    let missing := s.dev.cell.missingAt a u
    let i := s.dev.correctionInput a u ⟨0, 0, 0⟩
    let sampled := ((s.atService a).handOver a
        (.correctResponse tag .ok i.compute.q (i.flags (s.dev.cell.arm a).mismatch false))).modArm a
      (fun x => { x with lastSample := some u, exitSet := m.exitSet })
    let box (b : Nat) : Prop := b ≤ m.rack.ports.length ∧ m.isOpen b = false ∧ ∃ x, m.rackBox b = some x ∧ x.contains u = true
    let still := (s.dev.cell.arm a).seq.state.inCycle = false ∧ (s.dev.cell.arm a.other).seq.state.inCycle = false
    let taken (j : Nat) : Prop := j ∈ missing ∧ s.dev.cell.bays.holder j = some a.other ∧
      ∀ n ∈ missing, n < j → s.dev.cell.bays.holder n ≠ some a.other
    ((∀ b, ¬box b) → still → missing.head? = some k →
      ((∀ j ∈ missing, s.dev.cell.bays.holder j = none) →
        exec (.correct a tag 1 0 u) s = .next (s.withCell (sampled.latchStop a (.bay k a)))) ∧
      (∀ j, taken j →
        exec (.correct a tag 1 0 u) s =
          .next (s.withCell ((sampled.latchStop a (.bay k a)).latchStop a.other (.bay j a))))) ∧
    (∀ b, box b → (∀ j, j < b → ¬box j) →
      (still → (∀ j ∈ missing, s.dev.cell.bays.holder j = none) →
        exec (.correct a tag 1 0 u) s = .next (s.withCell (sampled.latchStop a (.rack b)))) ∧
      (still → ∀ j, taken j →
        exec (.correct a tag 1 0 u) s =
          .next (s.withCell ((sampled.latchStop a (.rack b)).latchStop a.other (.bay j a)))) ∧
      ((s.dev.cell.arm a).stop = none →
        ∃ t, exec (.correct a tag 1 0 u) s = .next t ∧ (t.dev.cell.arm a).stop = some (.rack b) ∧
          (t.dev.cell.arm a).seq.state.inCycle = false)))

/-! ### Arm ports (R177 to R191) -/

/-- ARM_ENABLE of an OFF arm that is configured, with bays configured and no map LOADING, makes it STARTING in LISTEN with both
counts 0 and the LISTEN timer at 1,000 ms; it is BAD_STATE and NOT_CONFIGURED otherwise. ARM_DISABLE takes the arm to OFF: with no
effect from OFF, with the queues discarded from STARTING, and from RUN with the wait slot, the last sample and the exit set
emptied as well, here with no change in CYCLE (R43, R178, R179, R187). The model's own: log entries 6 and 11. -/
def Obligations.ArmEnableAndArmDisable : Prop :=
  ∀ (arm : Nat) (a : ArmId) (s : State), s.takes 3 → armOfCode arm = some a →
    let m := s.dev.cell.arm a
    let ready := m.configured = true ∧ s.dev.cell.bays.holders ≠ []
    let put (f : Arm → Arm) : Device := { s.dev with cell := s.dev.cell.modArm a f }
    let still (p : ArmPort) : ArmPort :=
      { p with mode := .off, phase := none, phaseTimer := none, queue := [], transmit := p.transmit.take 1 }
    ((m.port.mode ≠ .off ∨ m.maps.anyLoading = true) →
      exec (.armEnable arm) s = .next (s.answered 1025 3 8 [] s.dev)) ∧
    (m.port.mode = .off → m.maps.anyLoading = false → ¬ready →
      exec (.armEnable arm) s = .next (s.answered 1025 3 11 [] s.dev)) ∧
    (m.port.mode = .off → m.maps.anyLoading = false → ready →
      exec (.armEnable arm) s =
        .next (s.answered 1025 3 0 [] (put (fun x => { x with port := { x.port with
          mode := .starting, phase := some .listen, attempts := 0, dropped := 0, phaseTimer := some 1000 } })))) ∧
    (m.port.mode = .off → exec (.armDisable arm) s = .next (s.answered 1026 3 0 [] s.dev)) ∧
    (m.port.mode = .starting →
      exec (.armDisable arm) s =
        .next (s.answered 1026 3 0 [] (put (fun x => { x with port := still x.port })))) ∧
    (m.port.mode = .run → m.seq.state.inCycle = false →
      exec (.armDisable arm) s =
        .next (s.answered 1026 3 0 [] (put (fun x => { x with
          wait := none, lastSample := none, exitSet := [], port := { still x.port with silenceTimer := none } }))))

/-- A HELLO in STARTING stores its tags and code and resolves the seated field by the table of R182: code 0 NONE; the code of the probe
SEATED on the arm that probe, nothing changing; the code of a probe of the arm that is OUT that probe, which is SEATED, a port EXPECTING
it EMPTY; of one in its RACK UNKNOWN with PORT_MISMATCH; of a probe of the other arm or of none UNKNOWN; but for its own code a probe
SEATED before goes OUT, or FREE, and its VACANT port becomes EMPTY. In CHANGE_FAULT the seated field and the records stand. It answers
AGREE, unless the envelope of the resolved field is empty on an axis: then REFUSE, and an attempt is counted, the records standing. READY
in AGREE takes the arm to RUN with the mismatch mark decided and the silence timer started. An expiry of the LISTEN or AGREE timer counts
an attempt: back to LISTEN, and to OFF with ARM_LINK at the third. The expiry of the silence timer takes a running arm to OFF with
ARM_LINK. A HELLO in OFF, or of another letter, is discarded; in RUN the arm leaves RUN for STARTING, its change aborted with cause LINK,
with ARM_LINK and no attempts, and the HELLO is taken there (R45, R109, R119, R180 to R187). The model's own: log entries 4 and 6. -/
def Obligations.BringUpFollowsItsPhases : Prop :=
  ∀ (a : ArmId) (tags : Tags) (s : State), s.dev.link.held = false →
    let c := s.dev.cell
    let m := c.arm a
    let hello (code : Nat) := exec (.hello a (armCode a) tags code) s
    let changed (f : Arm → Arm) : State := s.withCell (c.modArm a f)
    let empties (st : PortState) (n : Cell) : Cell := n.modArm a (fun x => { x with rack := { x.rack with
      ports := x.rack.ports.map (fun y => if y.state = st then { y with state := .empty } else y) } })
    let seats (p : Nat) (n : Cell) : Cell :=
      empties (.expecting p) { n with probes := n.probes.set p { n.probe p with location := .seated } }
    let taken (code : Nat) (x : ArmPort) : ArmPort := { x with expected := tags, heldCode := code }
    let resolves (code : Nat) (seat : Seated) (sent : Nat) (n : Cell) : Prop :=
      ((c.envelopeFor a seat).emptyOnAxis = false →
        hello code = .next (s.withCell (n.modArm a (fun x => { x with
          seq := { x.seq with seated := seat }
          port := { taken code x.port with
            agreeTags := m.maps.presented, phase := some .agree, phaseTimer := some 200 }.handOver (.agree m.maps.presented seat sent) })))) ∧
      ((c.envelopeFor a seat).emptyOnAxis = true →
        (m.port.attempts < 2 → hello code = .next (changed (fun x => { x with
          port := { (taken code x.port).handOver (.refuse code) with
            attempts := x.port.attempts + 1, phase := some .listen, phaseTimer := some 1000 } }))) ∧
        (2 ≤ m.port.attempts → hello code = .next (s.withCell ((c.modArm a (fun x =>
          let y := (taken code x.port).handOver (.refuse code)
          { x with port := { y with
            attempts := x.port.attempts + 1, mode := .off, phase := none, phaseTimer := none
            queue := [], transmit := y.transmit.take 1 } })).addNotice (.armLink a .attempts)))))
    let used (q : Nat) : Prop := (c.probe q).state ≠ .free
    let seated (q : Nat) : Prop := used q ∧ (c.probe q).home = a ∧ (c.probe q).location = .seated
    (∀ letter code, (letter ≠ armCode a ∨ m.port.mode = .off) → exec (.hello a letter tags code) s = .next s) ∧
    (m.port.mode = .starting → (∀ cause step p, m.seq.state ≠ .changeFault cause step p) → ∀ left : Cell,
      ((∀ q, ¬seated q) ∧ left = c) ∨
        (∃ q, seated q ∧ (∀ n, seated n → n = q) ∧ left = (empties (.vacant q) c).probeOut q) →
      resolves 0 .noProbe 0 left ∧
      (∀ p, used p → (c.probe p).code ≠ 0 → (∀ n, used n → (c.probe n).code = (c.probe p).code → n = p) →
        let code := (c.probe p).code
        (seated p → resolves code (.probe p) code c) ∧
        ((c.probe p).home = a → (c.probe p).location = .out → resolves code (.probe p) code (seats p left)) ∧
        (∀ k, (c.probe p).home = a → (c.probe p).location = .rack k → resolves code .unknown 0 (left.addNotice (.portMismatch a k))) ∧
        ((c.probe p).home ≠ a → resolves code .unknown 0 left)) ∧
      (∀ code, code ≠ 0 → (∀ n, used n → (c.probe n).code ≠ code) → resolves code .unknown 0 left)) ∧
    (m.port.mode = .starting → ∀ cause step p, m.seq.state = .changeFault cause step p → ∀ code,
      resolves code m.seq.seated (match m.seq.seated with | .probe q => (c.probe q).code | .noProbe | .unknown => 0) c) ∧
    (m.port.mode = .starting → m.port.phase = some .agree →
      exec (.ready a) s = .next (changed (fun x => { x with
        mismatch := m.port.expected != m.port.agreeTags
        port := { x.port with
          mode := .run, phase := none, phaseTimer := none, silenceTimer := some m.settings.silence } }))) ∧
    (¬(m.port.mode = .starting ∧ m.port.phase = some .agree) → exec (.ready a) s = .next s) ∧
    (∀ phase, m.port.phase = some phase → m.port.phaseTimer.isSome = true →
      let expiry := exec (match phase with | .listen => Instr.listenTimerExpiry a | .agree => Instr.agreeTimerExpiry a) s
      (m.port.attempts < 2 → expiry = .next (changed (fun x => { x with port := { x.port with
        attempts := x.port.attempts + 1, phase := some .listen, phaseTimer := some 1000 } }))) ∧
      (2 ≤ m.port.attempts → expiry = .next (s.withCell ((c.modArm a (fun x => { x with port := { x.port with
        attempts := x.port.attempts + 1, mode := .off, phase := none, phaseTimer := none
        queue := [], transmit := x.port.transmit.take 1 } })).addNotice (.armLink a .attempts))))) ∧
    (m.port.mode = .run → m.port.silenceTimer.isSome = true → m.seq.state.inCycle = false →
      exec (.silenceTimerExpiry a) s = .next (s.withCell ((c.modArm a (fun x => { x with
        wait := none, lastSample := none, exitSet := []
        port := { x.port with
          mode := .off, phase := none, phaseTimer := none, silenceTimer := none
          queue := [], transmit := x.port.transmit.take 1 } })).addNotice (.armLink a .silence)))) ∧
    (m.port.mode = .run → ∀ code, ∃ t, hello code = .next t ∧ (t.dev.cell.mode a = .starting) ∧
      (t.dev.cell.arm a).port.attempts ≤ 1 ∧ (t.dev.cell.arm a).lastSample = none ∧ (t.dev.cell.arm a).wait = none ∧
      (t.dev.cell.arm a).port.queue = []) ∧
    (m.port.mode = .run →
      let left := (c.modArm a (fun x =>
        { x with wait := none, port := { x.port with mode := .starting, phase := some .listen } })).abort a .link
      let restarted := (left.modArm a (fun x => { x with
        lastSample := none, exitSet := []
        port := { x.port with
          attempts := 0, queue := [], transmit := x.port.transmit.take 1
          silenceTimer := none, phaseTimer := none } })).addNotice (.armLink a .restart)
      ∀ code, hello code = exec (.hello a (armCode a) tags code) (s.withCell restarted))

/-- A request in OFF is discarded; elsewhere it restarts the silence timer in RUN. On an empty queue with at most 12 frames waiting it is
served at its arrival, as its service row serves it; behind more frames it joins a queue of fewer than four, or is answered FULL at
once. A sent frame leaves the list, and the head that the shorter list lets be served is served at that event; a discarded frame
changes nothing; HEARTBEAT answers OK in RUN and BAD_STATE in STARTING; a frame handed to a full list is dropped and counted (R180,
R186, R188, R189, R190). The model's own: log entries 5 and 6. -/
def Obligations.RequestsAndFramesOfTheArmLink : Prop :=
  ∀ (a : ArmId) (tag : Nat) (r : Request) (s : State), s.dev.link.held = false →
    let m := s.dev.cell.arm a
    let heard := s.dev.cell.modArm a (fun x =>
      if x.port.mode = .run then { x with port := { x.port with silenceTimer := some x.settings.silence } } else x)
    let row : Instr := match r with
      | .correct tag kind tip u => .correct a tag kind tip u
      | .check tag t => .check a tag t
      | .reserve tag first last wait => .reserve a tag first last wait
      | .release tag first last => .release a tag first last
      | .changeBegin tag t => .changeBegin a tag t
      | .changeAbort tag => .changeAbortArm a tag
      | .reportStaged tag => .reportStaged a tag
      | .reportId tag code => .reportId a tag code
      | .reportHit tag => .reportHit a tag
      | .heartbeat tag => .heartbeat a tag
    let beat := TxFrame.shortResponse .heartbeat tag (if m.port.mode = .run then .ok else .badState) 0 0
    (m.port.mode = .off → exec (.requestArrival a r) s = .next s) ∧
    (m.port.mode ≠ .off → m.port.queue = [] → m.port.transmit.length ≤ 12 → exec (.requestArrival a r) s = exec row s) ∧
    (m.port.mode ≠ .off → 12 < m.port.transmit.length →
      (m.port.queue.length < 4 →
        exec (.requestArrival a r) s = .next (s.withCell (heard.modArm a (fun x =>
          { x with port := { x.port with queue := x.port.queue ++ [r] } })))) ∧
      (4 ≤ m.port.queue.length →
        exec (.requestArrival a r) s = .next (s.withCell (heard.handOver a (fullResponse r))))) ∧
    ((m.port.queue = [] ∨ 13 < m.port.transmit.length) →
      exec (.frameSent a) s =
        .next (s.withCell (s.dev.cell.modArm a (fun x => { x with port := { x.port with transmit := x.port.transmit.drop 1 } })))) ∧
    (∀ rest, m.port.queue = .heartbeat tag :: rest → m.port.transmit.length = 13 →
      exec (.frameSent a) s =
        .next (s.withCell (s.dev.cell.modArm a (fun x =>
          { x with port := { x.port with queue := rest, transmit := x.port.transmit.drop 1 ++ [beat] } })))) ∧
    exec (.armFrameDiscarded a) s = .next s ∧
    (s.serves a (.heartbeat tag) →
      exec (.heartbeat a tag) s = .next (s.withCell ((s.atService a).handOver a (.shortResponse .heartbeat tag .ok 0 0)))) ∧
    (m.port.mode = .starting → m.port.queue = [] → m.port.transmit.length ≤ 12 →
      exec (.heartbeat a tag) s = .next (s.withCell (s.dev.cell.handOver a (.shortResponse .heartbeat tag .badState 0 0)))) ∧
    (∀ (p : ArmPort) (f : TxFrame),
      (p.transmit.length < 16 → p.handOver f = { p with transmit := p.transmit ++ [f] }) ∧
      (16 ≤ p.transmit.length → p.handOver f = { p with dropped := if p.dropped < 255 then p.dropped + 1 else p.dropped }))

/-- An arm that is not RUN holds no wait slot, change in CYCLE, last sample or exit set; an OFF arm queues no request; a phase
stands in STARTING alone; the request queue, the transmit list and the dropped count stay within their room; and a request waits only
behind a transmit list of more than 12 frames. Every step keeps it
(R144, R146, R165, R177, R187, R188, R190). The model's own: log entry 2. -/
def Obligations.StepKeepsArmsAtRestOutsideRun : Prop :=
  ∀ s t : State, s.bothArms (fun m => m.restsOutsideRun ∧ m.withinRoom ∧ m.servesPromptly) → step s = .next t →
    t.bothArms (fun m => m.restsOutsideRun ∧ m.withinRoom ∧ m.servesPromptly)

/-- The three invariants that every step keeps hold after power-on. -/
def Obligations.InvariantsHoldAtReset : Prop :=
  State.reset.bothArms Arm.loadsOnlyOff ∧ State.reset.dev.bus.quiet ∧
    State.reset.bothArms (fun m => m.restsOutsideRun ∧ m.withinRoom ∧ m.servesPromptly)
end

