-- ==== Sys2Proof/Laws/State.lean ====
section
/-! SUPPORT. What each named update of the state leaves in each field: one lemma for each field and update, so that no later
proof unfolds a record update. -/

namespace Sys2Proof

@[simp] theorem ArmId.other_ne (a : ArmId) : a.other ≠ a := by cases a <;> decide
@[simp] theorem ArmId.ne_other (a : ArmId) : a ≠ a.other := by cases a <;> decide
@[simp] theorem ArmId.other_other (a : ArmId) : a.other.other = a := by cases a <;> rfl

/-- Two arms: another arm is the other one. -/
theorem ArmId.eq_or_other (a b : ArmId) : b = a ∨ b = a.other := by cases a <;> cases b <;> decide

/-! ### Tables -/

namespace Table

variable {α : Type} {n : Nat}

@[simp] theorem get_zero (t : Table α n) (d : α) : t.get 0 d = d := rfl
@[simp] theorem set_zero (t : Table α n) (x : α) : t.set 0 x = t := rfl

theorem get_set_same (t : Table α n) (k : Nat) (x d : α) (h1 : 1 ≤ k) (h2 : k ≤ n) : (t.set k x).get k d = x := by
  cases k with
  | zero => omega
  | succ i => simp [get, set, t.property, Nat.lt_of_succ_le h2]

@[simp] theorem get_set_other (t : Table α n) (j k : Nat) (x d : α) (h : j ≠ k) : (t.set k x).get j d = t.get j d := by
  cases k with
  | zero => rfl
  | succ i =>
    cases j with
    | zero => rfl
    | succ j => simp only [get, set]; rw [List.getElem?_set_ne (by omega)]

@[simp] theorem set_set (t : Table α n) (k : Nat) (x y : α) : (t.set k x).set k y = t.set k y := by
  cases k with
  | zero => rfl
  | succ i => exact Subtype.ext (by simp [set])

/-- A record that is none of the table's reads as the default. -/
theorem get_outside (t : Table α n) (k : Nat) (d : α) (h : k = 0 ∨ n < k) : t.get k d = d := by
  cases k with
  | zero => rfl
  | succ i => simp [get, t.property, show n ≤ i by omega]

/-- Every record read by number is the default or stands in the table. -/
theorem get_mem (t : Table α n) (k : Nat) (d : α) : t.get k d = d ∨ t.get k d ∈ t.val := by
  cases k with
  | zero => exact .inl rfl
  | succ i =>
    simp only [get]
    cases h : t.val[i]? with
    | none => simp
    | some x => exact .inr (by simpa using List.mem_of_getElem? h)

/-- A record of the table is read by a number 1..n. -/
theorem exists_get_of_mem (t : Table α n) (x d : α) (h : x ∈ t.val) : ∃ k, 1 ≤ k ∧ k ≤ n ∧ t.get k d = x := by
  obtain ⟨i, hi, rfl⟩ := List.getElem_of_mem h
  exact ⟨i + 1, by omega, by have := t.property; omega, by simp [get, hi]⟩

@[simp] theorem get_fill (m k : Nat) (x : α) : (Table.fill α m x).get k x = x := by
  cases k with
  | zero => rfl
  | succ i => simp only [get, fill, List.getElem?_replicate]; split <;> rfl

@[simp] theorem get_map {β : Type} (f : α → β) (t : Table α n) (k : Nat) (d : α) : (t.map f).get k (f d) = f (t.get k d) := by
  cases k with
  | zero => rfl
  | succ i => simp only [get, map, List.getElem?_map]; cases t.val[i]? <;> rfl

/-- A record stands in the numbered list under its own number. -/
theorem mem_numbered (t : Table α n) (k : Nat) (x d : α) : (k, x) ∈ t.numbered ↔ 1 ≤ k ∧ k ≤ n ∧ t.get k d = x := by
  simp only [numbered, List.mem_map, Prod.mk.injEq, Prod.exists]
  constructor
  · rintro ⟨y, i, h, rfl, rfl⟩
    have hg := List.mk_mem_zipIdx_iff_getElem?.1 h
    have hl : i < t.val.length := (List.getElem?_eq_some_iff.1 hg).1
    exact ⟨by omega, by have := t.property; omega, by simp [get, hg]⟩
  · rintro ⟨h1, h2, h⟩
    cases k with
    | zero => omega
    | succ i =>
      refine ⟨x, i, List.mk_mem_zipIdx_iff_getElem?.2 ?_, rfl, rfl⟩
      simp only [get] at h
      cases hx : t.val[i]? with
      | none => have := List.getElem?_eq_none_iff.1 hx; have := t.property; omega
      | some y => rw [hx] at h; simp at h; rw [h]

theorem get_mapNumbered {β : Type} (f : Nat → α → β) (t : Table α n) (k : Nat) (d : α) (e : β) (h1 : 1 ≤ k) (h2 : k ≤ n) :
    (t.mapNumbered f).get k e = f k (t.get k d) := by
  cases k with
  | zero => omega
  | succ i =>
    have : i < t.val.length := by have := t.property; omega
    simp [mapNumbered, get, this]

end Table

namespace Machine

/-! ### An arm of the cell -/

section Arms
variable (c : Cell) (a b : ArmId) (f g : Arm → Arm)

@[simp] theorem Cell.arm_modArm_same : (c.modArm a f).arm a = f (c.arm a) := by cases a <;> rfl
@[simp] theorem Cell.arm_modArm_other : (c.modArm a f).arm a.other = c.arm a.other := by cases a <;> rfl
@[simp] theorem Cell.arm_modArm_other' : (c.modArm a.other f).arm a = c.arm a := by cases a <;> rfl
theorem Cell.arm_modArm_ne (h : b ≠ a) : (c.modArm a f).arm b = c.arm b := by cases a <;> cases b <;> first | rfl | exact absurd rfl h
@[simp] theorem Cell.ms_modArm : (c.modArm a f).ms = c.ms := by cases a <;> rfl
@[simp] theorem Cell.notices_modArm : (c.modArm a f).notices = c.notices := by cases a <;> rfl
@[simp] theorem Cell.probes_modArm : (c.modArm a f).probes = c.probes := by cases a <;> rfl
@[simp] theorem Cell.bays_modArm : (c.modArm a f).bays = c.bays := by cases a <;> rfl
@[simp] theorem Cell.probe_modArm (p : Nat) : (c.modArm a f).probe p = c.probe p := by cases a <;> rfl
@[simp] theorem Cell.modArm_modArm : (c.modArm a f).modArm a g = c.modArm a (fun m => g (f m)) := by cases a <;> rfl
theorem Cell.modArm_id : c.modArm a (fun m => m) = c := by cases a <;> rfl
theorem Cell.modArm_congr (h : f (c.arm a) = g (c.arm a)) : c.modArm a f = c.modArm a g := by
  cases a <;> simp_all [Cell.modArm, Cell.arm]
theorem Cell.modArm_comm (h : Arm → Arm) : (c.modArm a f).modArm a.other h = (c.modArm a.other h).modArm a f := by cases a <;> rfl

@[simp] theorem Cell.arm_armA : c.arm .armA = c.armA := rfl
@[simp] theorem Cell.arm_armB : c.arm .armB = c.armB := rfl

end Arms

section Parts
variable (c : Cell) (a : ArmId)

@[simp] theorem Cell.mode_eq : c.mode a = (c.arm a).port.mode := rfl
@[simp] theorem Cell.running_eq : c.running a = ((c.arm a).port.mode == .run) := rfl
@[simp] theorem Cell.isOff_eq : c.isOff a = ((c.arm a).port.mode == .off) := rfl
@[simp] theorem Cell.modPort_eq (f : ArmPort → ArmPort) : c.modPort a f = c.modArm a (fun m => { m with port := f m.port }) := rfl
@[simp] theorem Cell.modSeq_eq (f : Sequencer → Sequencer) : c.modSeq a f = c.modArm a (fun m => { m with seq := f m.seq }) := rfl
@[simp] theorem Cell.modRack_eq (f : Rack → Rack) : c.modRack a f = c.modArm a (fun m => { m with rack := f m.rack }) := rfl
@[simp] theorem Cell.handOver_eq (f : TxFrame) : c.handOver a f = c.modArm a (fun m => { m with port := m.port.handOver f }) := rfl
@[simp] theorem Cell.setWait_eq (w : Option WaitSlot) : c.setWait a w = c.modArm a (fun m => { m with wait := w }) := rfl
@[simp] theorem Cell.respond_eq (k : ShortKind) (tag : Nat) (st : Status) (x y : Nat) :
    c.respond a k tag st x y = c.handOver a (.shortResponse k tag st x y) := rfl

end Parts

/-! ### Probes, notices and bays of the cell -/

section Others
variable (c : Cell) (a : ArmId) (p q : Nat) (f : Probe → Probe) (n : Notice) (g : Bays → Bays)

@[simp] theorem Cell.arm_modProbe : (c.modProbe p f).arm a = c.arm a := by cases a <;> rfl
@[simp] theorem Cell.ms_modProbe : (c.modProbe p f).ms = c.ms := rfl
@[simp] theorem Cell.notices_modProbe : (c.modProbe p f).notices = c.notices := rfl
@[simp] theorem Cell.bays_modProbe : (c.modProbe p f).bays = c.bays := rfl
theorem Cell.probe_modProbe_same (h1 : 1 ≤ p) (h2 : p ≤ 40) : (c.modProbe p f).probe p = f (c.probe p) :=
  Table.get_set_same _ _ _ _ h1 h2
@[simp] theorem Cell.probe_modProbe_other (h : q ≠ p) : (c.modProbe p f).probe q = c.probe q := Table.get_set_other _ _ _ _ _ h

@[simp] theorem Cell.arm_addNotice : (c.addNotice n).arm a = c.arm a := by cases a <;> rfl
@[simp] theorem Cell.ms_addNotice : (c.addNotice n).ms = c.ms := rfl
@[simp] theorem Cell.probes_addNotice : (c.addNotice n).probes = c.probes := rfl
@[simp] theorem Cell.probe_addNotice : (c.addNotice n).probe p = c.probe p := rfl
@[simp] theorem Cell.bays_addNotice : (c.addNotice n).bays = c.bays := rfl
theorem Cell.addNotice_modArm (h : Arm → Arm) : (c.modArm a h).addNotice n = (c.addNotice n).modArm a h := by cases a <;> rfl

@[simp] theorem Cell.arm_onBays : (c.onBays g).arm a = c.arm a := by cases a <;> rfl
@[simp] theorem Cell.ms_onBays : (c.onBays g).ms = c.ms := rfl
@[simp] theorem Cell.notices_onBays : (c.onBays g).notices = c.notices := rfl
@[simp] theorem Cell.probe_onBays : (c.onBays g).probe p = c.probe p := rfl
@[simp] theorem Cell.bays_onBays : (c.onBays g).bays = g c.bays := rfl

end Others

/-! ### The part -/

section Parts
variable (d : Device) (a : ArmId) (f : Cell → Cell) (g : Bus → Bus)

@[simp] theorem Device.cell_onCell : (d.onCell f).cell = f d.cell := rfl
@[simp] theorem Device.link_onCell : (d.onCell f).link = d.link := rfl
@[simp] theorem Device.bus_onCell : (d.onCell f).bus = d.bus := rfl
@[simp] theorem Device.temp_onCell : (d.onCell f).temp = d.temp := rfl
@[simp] theorem Device.workpiece_onCell : (d.onCell f).workpiece = d.workpiece := rfl
@[simp] theorem Device.freeCount_onCell : (d.onCell f).freeCount = d.freeCount := rfl
@[simp] theorem Device.cell_onBus : (d.onBus g).cell = d.cell := rfl
@[simp] theorem Device.link_onBus : (d.onBus g).link = d.link := rfl
@[simp] theorem Device.bus_onBus : (d.onBus g).bus = g d.bus := rfl
@[simp] theorem Device.temp_onBus : (d.onBus g).temp = d.temp := rfl
@[simp] theorem Device.workpiece_onBus : (d.onBus g).workpiece = d.workpiece := rfl
@[simp] theorem Device.cell_addNotice (n : Notice) : (d.addNotice n).cell = d.cell.addNotice n := rfl
@[simp] theorem Device.bus_addNotice (n : Notice) : (d.addNotice n).bus = d.bus := rfl
@[simp] theorem Device.temp_addNotice (n : Notice) : (d.addNotice n).temp = d.temp := rfl
@[simp] theorem Device.link_addNotice (n : Notice) : (d.addNotice n).link = d.link := rfl
@[simp] theorem Device.cell_setChannel (k : Nat) (x : Channel) : (d.setChannel k x).cell = d.cell := rfl
@[simp] theorem Device.bus_setChannel (k : Nat) (x : Channel) : (d.setChannel k x).bus = d.bus := rfl
@[simp] theorem Device.link_setChannel (k : Nat) (x : Channel) : (d.setChannel k x).link = d.link := rfl
@[simp] theorem Device.cell_setGroup (k : Nat) (x : Group) : (d.setGroup k x).cell = d.cell := rfl
@[simp] theorem Device.bus_setGroup (k : Nat) (x : Group) : (d.setGroup k x).bus = d.bus := rfl
@[simp] theorem Device.link_setGroup (k : Nat) (x : Group) : (d.setGroup k x).link = d.link := rfl
@[simp] theorem Device.cell_countFree : d.countFree.cell = d.cell := rfl
@[simp] theorem Device.bus_countFree : d.countFree.bus = d.bus := rfl
@[simp] theorem Device.temp_countFree : d.countFree.temp = d.temp := rfl
@[simp] theorem Device.link_countFree : d.countFree.link = d.link := rfl
theorem Device.onCell_congr (h : Cell → Cell) (e : f d.cell = h d.cell) : d.onCell f = d.onCell h := by
  simp only [Device.onCell, e]
theorem Device.onCell_id (h : f d.cell = d.cell) : d.onCell f = d := by simp only [Device.onCell, h]

end Parts

/-! ### The machine -/

section Machine
variable (s : State) (c : Cell) (b : Bus) (d : Device) (code words status : Nat) (body : List Word)

@[simp] theorem State.cell_withCell : (s.withCell c).dev.cell = c := rfl
@[simp] theorem State.bus_withCell : (s.withCell c).dev.bus = s.dev.bus := rfl
@[simp] theorem State.link_withCell : (s.withCell c).dev.link = s.dev.link := rfl
@[simp] theorem State.pending_withCell : (s.withCell c).pending = s.pending := rfl
@[simp] theorem State.bus_withBus : (s.withBus b).dev.bus = b := rfl
@[simp] theorem State.cell_withBus : (s.withBus b).dev.cell = s.dev.cell := rfl
@[simp] theorem State.link_withBus : (s.withBus b).dev.link = s.dev.link := rfl
@[simp] theorem State.pending_withBus : (s.withBus b).pending = s.pending := rfl
@[simp] theorem State.cell_answered : (s.answered code words status body d).dev.cell = d.cell := rfl
@[simp] theorem State.bus_answered : (s.answered code words status body d).dev.bus = d.bus := rfl
@[simp] theorem State.temp_answered : (s.answered code words status body d).dev.temp = d.temp := rfl
@[simp] theorem State.pending_answered : (s.answered code words status body d).pending = s.pending := rfl

/-- Two answered states are equal when what they answer is. -/
theorem State.answered_congr {st st' : Nat} {y y' : List Word} {e e' : Device} (h1 : st = st') (h2 : y = y') (h3 : e = e') :
    s.answered code words st y e = s.answered code words st' y' e' := by subst h1 h2 h3; rfl

/-- The arms as a service finds them: the head of the queue is taken, or the request arrives on an empty queue. -/
theorem State.atService_eq (a : ArmId) :
    s.atService a = s.dev.cell.modArm a (fun m =>
      { m with port := { m.port with
        silenceTimer := if m.port.queue = [] then some m.settings.silence else m.port.silenceTimer
        queue := m.port.queue.drop 1 } }) := by
  refine Cell.modArm_congr _ _ _ _ ?_
  cases h : (s.dev.cell.arm a).port.queue <;> simp [h]

end Machine

end Machine

end Sys2Proof
end

