-- ==== Sys2Proof/Laws/Ops.lean ====
section
/-! SUPPORT. One lemma for each shared operation: the arithmetic of operands (R3, R4), the service of a command (R193, R194), the
events of a live part (R201), the notice set (R197), frames handed over (R190), and the free order. -/

namespace Sys2Proof.Machine

/-! ### Operands -/

theorem clampNat_eq (lo hi v : Nat) (h : lo ≤ hi) : clampNat lo hi v = min (max v lo) hi := by
  simp only [clampNat]; split <;> (try split) <;> omega

theorem clampNat_zero (hi v : Nat) : clampNat 0 hi v = min v hi := by simp only [clampNat]; split <;> (try split) <;> omega

theorem clampInt_eq (lo hi v : Int) (h : lo ≤ hi) : clampInt lo hi v = max lo (min hi v) := by
  simp only [clampInt]; split <;> (try split) <;> omega

theorem saturate_eq (v : Int) : saturate v = max (-2147483648) (min 2147483647 v) := by
  have h1 : Config.positionLow = -2147483648 := rfl
  have h2 : Config.positionHigh = 2147483647 := rfl
  simp only [saturate]
  split
  · omega
  · split <;> omega

theorem saturates_iff (v : Int) : saturates v = true ↔ saturate v ≠ v := by simp [saturates]

theorem armOfCode_armCode (a : ArmId) : armOfCode (armCode a) = some a := by cases a <;> rfl

@[simp] theorem word_length (v : Int) : (word v).length = 1 := rfl
@[simp] theorem word2_length (v : Int) : (word2 v).length = 2 := rfl
@[simp] theorem pointWords_length (p : Point) : (pointWords p).length = 6 := rfl
@[simp] theorem boxWords_length (b : Box) : (boxWords b).length = 12 := rfl
@[simp] theorem flagWord_length (b : Bool) : (flagWord b).length = 1 := rfl

theorem numberOk_iff (n k : Nat) : numberOk n k = true ↔ 1 ≤ k ∧ k ≤ n := by simp [numberOk]

@[simp] theorem clampStatus_number (b : Bool) : (clampStatus b).number = if b then 1 else 0 := by cases b <;> rfl

/-! ### Lists counted from 1 -/

theorem nth_changeNth_same {α : Type} (l : List α) (k : Nat) (f : α → α) (x : α) (h : nth l k = some x) :
    nth (changeNth l k f) k = some (f x) := by
  cases k with
  | zero => simp [nth] at h
  | succ i => simp only [nth] at h; simp [nth, changeNth, h]

theorem nth_changeNth_other {α : Type} (l : List α) (j k : Nat) (f : α → α) (h : j ≠ k) : nth (changeNth l k f) j = nth l j := by
  cases k with
  | zero => rfl
  | succ i =>
    cases j with
    | zero => rfl
    | succ j => simp only [nth, changeNth]; rw [List.getElem?_modify]; simp [show i ≠ j by omega]

theorem nth_map {α β : Type} (f : α → β) (l : List α) (k : Nat) : nth (l.map f) k = (nth l k).map f := by
  cases k <;> simp [nth]

@[simp] theorem changeNth_length {α : Type} (l : List α) (k : Nat) (f : α → α) : (changeNth l k f).length = l.length := by
  cases k <;> simp [changeNth]

/-! ### The notice set (R197) -/

theorem Notice.place_bounds (n : Notice) : 1 ≤ n.place ∧ n.place ≤ 16 := by cases n <;> simp [Notice.place]

theorem Cell.addNotice_get (c : Cell) (n : Notice) :
    (c.addNotice n).notices.get n.place none = some (bumpEntry n (c.notices.get n.place none)) :=
  Table.get_set_same _ _ _ _ n.place_bounds.1 n.place_bounds.2

/-! ### Frames handed over (R190) -/

theorem ArmPort.handOver_room (p : ArmPort) (f : TxFrame) (h : p.transmit.length < 16) :
    p.handOver f = { p with transmit := p.transmit ++ [f] } := if_pos h

theorem ArmPort.handOver_full (p : ArmPort) (f : TxFrame) (h : 16 ≤ p.transmit.length) :
    p.handOver f = { p with dropped := if p.dropped < 255 then p.dropped + 1 else p.dropped } :=
  if_neg (by simpa [Config.transmitRoom] using h)

section Port
variable (p : ArmPort) (f : TxFrame)

@[simp] theorem ArmPort.mode_handOver : (p.handOver f).mode = p.mode := by simp only [ArmPort.handOver]; split <;> rfl
@[simp] theorem ArmPort.phase_handOver : (p.handOver f).phase = p.phase := by simp only [ArmPort.handOver]; split <;> rfl
@[simp] theorem ArmPort.attempts_handOver : (p.handOver f).attempts = p.attempts := by simp only [ArmPort.handOver]; split <;> rfl
@[simp] theorem ArmPort.expected_handOver : (p.handOver f).expected = p.expected := by simp only [ArmPort.handOver]; split <;> rfl
@[simp] theorem ArmPort.heldCode_handOver : (p.handOver f).heldCode = p.heldCode := by simp only [ArmPort.handOver]; split <;> rfl
@[simp] theorem ArmPort.agreeTags_handOver : (p.handOver f).agreeTags = p.agreeTags := by simp only [ArmPort.handOver]; split <;> rfl
@[simp] theorem ArmPort.phaseTimer_handOver : (p.handOver f).phaseTimer = p.phaseTimer := by
  simp only [ArmPort.handOver]; split <;> rfl
@[simp] theorem ArmPort.silenceTimer_handOver : (p.handOver f).silenceTimer = p.silenceTimer := by
  simp only [ArmPort.handOver]; split <;> rfl
@[simp] theorem ArmPort.queue_handOver : (p.handOver f).queue = p.queue := by simp only [ArmPort.handOver]; split <;> rfl

/-- Whatever else of a port changes, a frame is handed over the same. -/
theorem ArmPort.handOver_with (mode : Mode) (phase : Option Phase) (attempts : Nat) (expected : Tags) (heldCode : Nat)
    (agreeTags : Tags) (phaseTimer silenceTimer : Timer) (queue : List Request) :
    { p.handOver f with mode := mode, phase := phase, attempts := attempts, expected := expected, heldCode := heldCode,
                        agreeTags := agreeTags, phaseTimer := phaseTimer, silenceTimer := silenceTimer, queue := queue } =
      ({ p with mode := mode, phase := phase, attempts := attempts, expected := expected, heldCode := heldCode,
                agreeTags := agreeTags, phaseTimer := phaseTimer, silenceTimer := silenceTimer, queue := queue } : ArmPort).handOver f := by
  simp only [ArmPort.handOver]; split <;> rfl

/-- A frame handed over leaves no frame out. -/
theorem ArmPort.handOver_grows : p.transmit.length ≤ (p.handOver f).transmit.length := by
  simp only [ArmPort.handOver]; split <;> simp

/-- A frame handed over keeps the transmit list and the dropped count within their room. -/
theorem ArmPort.handOver_room_kept (h1 : p.transmit.length ≤ 16) (h2 : p.dropped ≤ 255) :
    (p.handOver f).transmit.length ≤ 16 ∧ (p.handOver f).dropped ≤ 255 := by
  by_cases h : p.transmit.length < 16
  · rw [p.handOver_room f h]; exact ⟨by simp; omega, h2⟩
  · rw [p.handOver_full f (by omega)]; exact ⟨h1, by dsimp only; split <;> omega⟩

end Port

/-- A message reaches a running arm and is dropped elsewhere. -/
theorem Cell.message_run (c : Cell) (a : ArmId) (f : TxFrame) (h : (c.arm a).port.mode = .run) : c.message a f = c.handOver a f := by
  simp [Cell.message, h]

theorem Cell.message_not_run (c : Cell) (a : ArmId) (f : TxFrame) (h : (c.arm a).port.mode ≠ .run) : c.message a f = c := by
  simp [Cell.message, h]

/-! ### Events and commands (R193, R194, R201) -/

theorem State.event_live (s : State) (f : Device → Device) (h : s.dev.link.held = false) : s.event f = .next { s with dev := f s.dev } := by
  simp [State.event, Device.live, h]

theorem State.event_held (s : State) (f : Device → Device) (h : s.dev.link.held = true) : s.event f = .next s := by
  simp [State.event, Device.live, h]

/-- The part with the words of a frame of `words` words clocked out, as its serving finds it. -/
def Device.clocked (d : Device) (words : Nat) : Device := { d with link := d.link.clockOut words }

/-- A command that is taken is served, and its whole response joins the queue with the overflow mark, which is cleared. The premise
on `serve` says that it leaves the queue and the mark alone; every serving but that of RESET does. -/
theorem State.command_taken (s : State) (code words : Nat) (serve : Device → Served) (h : s.takes words)
    (hq : (serve (s.dev.clocked words)).dev.link.queue = s.dev.link.queue.drop words)
    (ho : (serve (s.dev.clocked words)).dev.link.overflow = s.dev.link.overflow) :
    s.command (BitVec.ofNat 16 code) words serve =
      .next (s.answered code words (serve (s.dev.clocked words)).status.number (serve (s.dev.clocked words)).body
        (serve (s.dev.clocked words)).dev) := by
  obtain ⟨hh, hr⟩ := h
  rw [State.command, State.event_live _ _ hh]
  have hroom : Config.serveRoom ≤ (s.dev.clocked words).link.room := by
    simp [Device.clocked, CellLink.room, CellLink.clockOut, Config.serveRoom, Config.outQueueRoom]; omega
  have : s.dev.command (BitVec.ofNat 16 code) words serve =
      { (serve (s.dev.clocked words)).dev with
        link := (serve (s.dev.clocked words)).dev.link.append (BitVec.ofNat 16 code)
          (serve (s.dev.clocked words)).status 0 (serve (s.dev.clocked words)).body } := by
    simp only [Device.command]
    exact if_pos hroom
  rw [this]
  simp only [State.answered, CellLink.append, hq, ho, responseWords, Config.shortResponse, flagCode]
  congr 4
  cases s.dev.link.overflow <;> simp

/-- A taken command of known serving: the result is worked out as if no word had been clocked out, since `State.answered` gives the
queue and the mark. -/
theorem State.command_answers (s : State) (code words status : Nat) (serve : Device → Served) (h : s.takes words) (d : Device)
    (st : Status) (body : List Word)
    (hs : serve (s.dev.clocked words) =
      ⟨{ d with link := { d.link with queue := s.dev.link.queue.drop words, overflow := s.dev.link.overflow } }, st, body⟩)
    (hst : st.number = status) :
    s.command (BitVec.ofNat 16 code) words serve = .next (s.answered code words status body d) := by
  rw [State.command_taken s code words serve h (by rw [hs]) (by rw [hs]), hs, hst]; rfl

/-- The state after a served command does not depend on the queue and the mark of the part that serving leaves. -/
theorem State.answered_clocked (s : State) (code words status : Nat) (body : List Word) (d : Device) (q : List Word) (o : Bool) :
    s.answered code words status body { d with link := { d.link with queue := q, overflow := o } } =
      s.answered code words status body d := rfl

@[simp] theorem State.answered_self_clocked (s : State) (code words status : Nat) (body : List Word) :
    s.answered code words status body (s.dev.clocked words) = s.answered code words status body s.dev := rfl

@[simp] theorem Device.cell_clocked (d : Device) (n : Nat) : (d.clocked n).cell = d.cell := rfl
@[simp] theorem Device.bus_clocked (d : Device) (n : Nat) : (d.clocked n).bus = d.bus := rfl
@[simp] theorem Device.temp_clocked (d : Device) (n : Nat) : (d.clocked n).temp = d.temp := rfl
@[simp] theorem Device.workpiece_clocked (d : Device) (n : Nat) : (d.clocked n).workpiece = d.workpiece := rfl
@[simp] theorem Device.freeCount_clocked (d : Device) (n : Nat) : (d.clocked n).freeCount = d.freeCount := rfl
@[simp] theorem Device.queue_clocked (d : Device) (n : Nat) : (d.clocked n).link.queue = d.link.queue.drop n := rfl
@[simp] theorem Device.overflow_clocked (d : Device) (n : Nat) : (d.clocked n).link.overflow = d.link.overflow := rfl

/-- A command that finds too little room is answered BUSY if three words are free, and otherwise marks the overflow (R194). -/
theorem State.command_busy (s : State) (code : Word) (words : Nat) (serve : Device → Served) (h : s.dev.link.held = false)
    (hr : 1024 < s.dev.link.queue.length - words + 256) :
    s.command code words serve =
      .next { s with dev := { s.dev with link := (s.dev.link.clockOut words).appendShort code .busy 0 } } := by
  rw [State.command, State.event_live _ _ h]
  have : ¬Config.serveRoom ≤ (s.dev.link.clockOut words).room := by
    simp [CellLink.room, CellLink.clockOut, Config.serveRoom, Config.outQueueRoom]; omega
  simp only [Device.command, if_neg this]

theorem State.command_held (s : State) (code : Word) (words : Nat) (serve : Device → Served) (h : s.dev.link.held = true) :
    s.command code words serve = .next s := State.event_held _ _ h

/-! ### The service of a request (R188) -/

/-- A request that may be served is served by the rule of its kind on the arms as `State.atService` gives them. -/
theorem serviceEvent_serves (s : State) (a : ArmId) (r : Request) (h : s.serves a r) :
    s.event (serviceEvent a r) = .next { s with dev := serveRequest a r (s.dev.onCell (fun _ => s.atService a)) } := by
  obtain ⟨hh, hm, ht, hq⟩ := h
  rw [State.event_live _ _ hh]
  congr 2
  have hserve : (s.dev.cell.arm a).port.mayServe = true := by simp [ArmPort.mayServe, Config.serviceLimit, ht]
  rcases hq with hq | ⟨rest, hq⟩
  · simp only [serviceEvent, Cell.isOff_eq, hm, hserve, hq]
    simp only [show (Mode.run == Mode.off) = false from rfl, Bool.not_true, Bool.or_self, Bool.false_eq_true, if_false]
    congr 1
    refine Device.onCell_congr _ _ _ (Cell.modArm_congr _ _ _ _ ?_)
    simp [hm, hq]
  · simp only [serviceEvent, Cell.isOff_eq, hm, hserve, hq]
    simp only [show (Mode.run == Mode.off) = false from rfl, Bool.not_true, Bool.or_self, Bool.false_eq_true, if_false, if_true]
    simp only [Device.serveHead, hq, hserve, if_true]
    congr 1
    refine Device.onCell_congr _ _ _ ?_
    rw [State.atService, Cell.popRequest, Cell.modPort_eq]
    exact Cell.modArm_congr _ _ _ _ (by rw [hq]; rfl)

/-! ### The free order (log entry 3) -/

theorem insertKeyed_perm {α : Type} (x : Nat × α) (l : List (Nat × α)) : (insertKeyed x l).Perm (x :: l) := by
  induction l with
  | nil => exact .refl _
  | cons y ys ih =>
    simp only [insertKeyed]
    split
    · exact .refl _
    · exact (List.Perm.cons y ih).trans (.swap x y ys)

/-- A free order leaves nothing out and adds nothing. -/
theorem freeOrder_perm {α : Type} (n : Nat) (l : List α) : (freeOrder n l).Perm l := by
  match l with
  | [] => exact .refl _
  | [x] => exact .refl _
  | x :: y :: rest =>
    have key : ∀ m : List (Nat × α), (m.foldr insertKeyed []).Perm m := by
      intro m
      induction m with
      | nil => exact .refl _
      | cons z zs ih => exact (insertKeyed_perm z _).trans (List.Perm.cons z ih)
    have h := (key ((x :: y :: rest).zipIdx.map (fun z => (Config.freeKey n z.2, z.1)))).map Prod.snd
    have e : ((x :: y :: rest).zipIdx.map (fun z => (Config.freeKey n z.2, z.1))).map Prod.snd = x :: y :: rest := by
      rw [List.map_map]
      exact List.zipIdx_map_fst 0 _
    rw [e] at h
    exact h

end Sys2Proof.Machine
end

