-- ==== Sys2Proof/Laws/Latches.lean ====
section
/-! SUPPORT. What the operations that tie racks, probes, changes and stop latches together can do to an arm (R114 to R119, R125 to
R137, R169 to R172): whatever they change, the records that other blocks own stand. Proofs about the part cite `Cell.Follows` and do
not unfold these operations. -/

namespace Sys2Proof.Machine

/-- `m'` is `m` after operations of the rack monitor, the change sequencer, the probe table and the stop latches: the settings, the
maps, the wait slot, the last sample, and all of the port but its transmit list and dropped count stand; the transmit list grows; no
change is begun; a set stop latch keeps its cause; without a last sample the exit set is as it was or empty. -/
structure Arm.Follows (m m' : Arm) : Prop where
  settings : m'.settings = m.settings
  configured : m'.configured = m.configured
  groups : m'.groups = m.groups
  mismatch : m'.mismatch = m.mismatch
  maps : m'.maps = m.maps
  wait : m'.wait = m.wait
  lastSample : m'.lastSample = m.lastSample
  mode : m'.port.mode = m.port.mode
  phase : m'.port.phase = m.port.phase
  attempts : m'.port.attempts = m.port.attempts
  phaseTimer : m'.port.phaseTimer = m.port.phaseTimer
  silenceTimer : m'.port.silenceTimer = m.port.silenceTimer
  queue : m'.port.queue = m.port.queue
  room : m.port.transmit.length ≤ 16 → m.port.dropped ≤ 255 → m'.port.transmit.length ≤ 16 ∧ m'.port.dropped ≤ 255
  grows : m.port.transmit.length ≤ m'.port.transmit.length
  cycle : m'.seq.state.inCycle = true → m.seq.state.inCycle = true
  stop : ∀ cause, m.stop = some cause → m'.stop = some cause
  exits : m.lastSample = none → m'.exitSet = m.exitSet ∨ m'.exitSet = []

theorem Arm.Follows.refl (m : Arm) : m.Follows m := by constructor <;> simp_all

theorem Arm.Follows.trans {m n k : Arm} (h : m.Follows n) (g : n.Follows k) : m.Follows k where
  settings := g.settings.trans h.settings
  configured := g.configured.trans h.configured
  groups := g.groups.trans h.groups
  mismatch := g.mismatch.trans h.mismatch
  maps := g.maps.trans h.maps
  wait := g.wait.trans h.wait
  lastSample := g.lastSample.trans h.lastSample
  mode := g.mode.trans h.mode
  phase := g.phase.trans h.phase
  attempts := g.attempts.trans h.attempts
  phaseTimer := g.phaseTimer.trans h.phaseTimer
  silenceTimer := g.silenceTimer.trans h.silenceTimer
  queue := g.queue.trans h.queue
  room h1 h2 := g.room (h.room h1 h2).1 (h.room h1 h2).2
  grows := Nat.le_trans h.grows g.grows
  cycle h1 := h.cycle (g.cycle h1)
  stop cause h1 := g.stop cause (h.stop cause h1)
  exits h1 := by
    rcases g.exits (h.lastSample.trans h1) with e | e
    · exact (h.exits h1).imp e.trans e.trans
    · exact .inr e

/-- Both arms follow, the bays and the millisecond count stand. -/
structure Cell.Follows (c c' : Cell) : Prop where
  arm : ∀ a, (c.arm a).Follows (c'.arm a)
  ms : c'.ms = c.ms
  bays : c'.bays = c.bays

theorem Cell.Follows.refl (c : Cell) : c.Follows c := ⟨fun _ => .refl _, rfl, rfl⟩

theorem Cell.Follows.trans {c d e : Cell} (h : c.Follows d) (g : d.Follows e) : c.Follows e :=
  ⟨fun a => (h.arm a).trans (g.arm a), g.ms.trans h.ms, g.bays.trans h.bays⟩

/-- A change of one arm that follows. -/
theorem Cell.follows_modArm (c : Cell) (a : ArmId) (f : Arm → Arm) (h : (c.arm a).Follows (f (c.arm a))) :
    c.Follows (c.modArm a f) :=
  ⟨fun b => by rcases a.eq_or_other b with rfl | rfl <;> simp [h, Arm.Follows.refl], by simp, by simp⟩

theorem Cell.follows_addNotice (c : Cell) (n : Notice) : c.Follows (c.addNotice n) := ⟨fun a => by simp [Arm.Follows.refl], rfl, rfl⟩

theorem Cell.follows_modProbe (c : Cell) (p : Nat) (f : Probe → Probe) : c.Follows (c.modProbe p f) :=
  ⟨fun a => by simp [Arm.Follows.refl], rfl, rfl⟩

theorem Cell.follows_modRack (c : Cell) (a : ArmId) (f : Rack → Rack) : c.Follows (c.modRack a f) :=
  c.follows_modArm a _ (by constructor <;> simp_all)

/-- A change of the sequencer that begins no change. -/
theorem Cell.follows_modSeq (c : Cell) (a : ArmId) (f : Sequencer → Sequencer)
    (h : (f (c.arm a).seq).state.inCycle = true → (c.arm a).seq.state.inCycle = true) : c.Follows (c.modSeq a f) :=
  c.follows_modArm a _ (by constructor <;> simp_all)

theorem Cell.follows_handOver (c : Cell) (a : ArmId) (f : TxFrame) : c.Follows (c.handOver a f) := by
  rw [Cell.handOver_eq]
  refine c.follows_modArm a _ ?_
  constructor <;> first | rfl | simp
  · exact fun h1 h2 => ArmPort.handOver_room_kept _ f h1 h2
  · exact ArmPort.handOver_grows _ f

theorem Cell.follows_message (c : Cell) (a : ArmId) (f : TxFrame) : c.Follows (c.message a f) := by
  simp only [Cell.message]; split
  · exact c.follows_handOver a f
  · exact .refl c

/-! ### Probes and ports -/

theorem Cell.follows_dropExpectation (c : Cell) (a : ArmId) (p : Nat) : c.Follows (c.dropExpectation a p) := c.follows_modRack a _

theorem Cell.follows_dropVacancy (c : Cell) (a : ArmId) (p : Nat) : c.Follows (c.dropVacancy a p) := c.follows_modRack a _

theorem Cell.follows_placeProbe (c : Cell) (p : Nat) (l : Location) : c.Follows (c.placeProbe p l) := c.follows_modProbe p _

theorem Cell.follows_freeProbe (c : Cell) (p : Nat) : c.Follows (c.freeProbe p) :=
  (c.follows_dropExpectation _ p).trans (Cell.follows_modProbe _ p _)

theorem Cell.follows_probeOut (c : Cell) (p : Nat) : c.Follows (c.probeOut p) := by
  simp only [Cell.probeOut]; split
  · exact c.follows_freeProbe p
  · exact c.follows_modProbe p _

theorem Cell.follows_placeNamed (c : Cell) (p : Option Nat) (l : Location) : c.Follows (c.placeNamed p l) := by
  cases p with
  | none => exact .refl c
  | some n => exact c.follows_placeProbe n l

theorem Cell.follows_setPortState (c : Cell) (a : ArmId) (k : Option Nat) (st : PortState) : c.Follows (c.setPortState a k st) := by
  cases k with
  | none => exact .refl c
  | some n =>
    simp only [Cell.setPortState, Cell.modRackPort]
    exact c.follows_modRack a _

/-! ### The latch-release output and the sequencer's state -/

theorem Cell.follows_setLatch (c : Cell) (a : ArmId) (level : Bool) : c.Follows (c.setLatch a level) := by
  simp only [Cell.setLatch]; split
  · exact .refl c
  · exact (c.follows_modSeq a _ (by simp)).trans (Cell.follows_modRack _ a _)

/-- Without a last sample the exit set is as it was or empty. -/
theorem Arm.exitSetAfter_none (m : Arm) (st : SeqState) (h : m.lastSample = none) :
    m.exitSetAfter st = m.exitSet ∨ m.exitSetAfter st = [] := by
  simp only [Arm.exitSetAfter, h]; split <;> (try split) <;> simp

/-- The rack boxes of the table of R145. -/
theorem SeqState.mem_opens (st : SeqState) (b : Nat) : b ∈ st.opens ↔ st.opensBox b := by
  cases st with
  | idle => simp [SeqState.opens, SeqState.opensBox]
  | cycle step p | changeFault cause step p =>
    cases step <;> simp [SeqState.opens, SeqState.opensBox, stepOpens]

theorem Arm.insideRackBox_iff (m : Arm) (b : Nat) (u : Point) : m.insideRackBox b u = true ↔ m.inBox b u := by
  have h : m.rackBox b = if b = 0 then some m.settings.staging else (nth m.rack.ports b).map (fun y => y.box) := by
    cases b <;> simp [Arm.rackBox, nth]
  simp only [Arm.insideRackBox, Arm.inBox, ← h]
  cases m.rackBox b with
  | none => simp
  | some box => simp [Box.contains, and_assoc]

/-- What joins the exit set when the sequencer leaves CYCLE or CHANGE_FAULT (R146). -/
theorem Arm.exitsInto_exitSetAfter (m : Arm) (st : SeqState) (h : st.inCycle = false) : m.exitsInto st (m.exitSetAfter st) := by
  intro b
  simp only [Arm.exitSetAfter, h, Bool.false_eq_true, if_false, ← SeqState.mem_opens, ← Arm.insideRackBox_iff]
  cases m.lastSample with
  | none => simp
  | some u =>
    by_cases hb : b ∈ m.exitSet
    · simp [hb]
    · simp [hb]

theorem Cell.follows_setSeqState (c : Cell) (a : ArmId) (st : SeqState)
    (h : st.inCycle = true → (c.arm a).seq.state.inCycle = true) : c.Follows (c.setSeqState a st) := by
  rw [Cell.setSeqState]
  refine c.follows_modArm a _ ?_
  constructor <;> first | rfl | simp
  · exact fun h1 h2 => ⟨h1, h2⟩
  · exact h
  · exact fun h1 => (c.arm a).exitSetAfter_none st h1

/-! ### Manual events, stop latches and aborts -/

theorem Cell.follows_manualOccupied (c : Cell) (a : ArmId) (k : Nat) (level : Bool) : c.Follows (c.manualOccupied a k level) := by
  simp only [Cell.manualOccupied]
  split
  · exact .refl c
  · split
    · exact (c.follows_setPortState a _ _).trans (Cell.follows_addNotice _ _)
    · exact (c.follows_setPortState a _ _).trans (Cell.follows_placeProbe _ _ _)
    · exact (c.follows_setPortState a _ _).trans (Cell.follows_addNotice _ _)
    · exact ((c.follows_setPortState a _ _).trans (Cell.follows_probeOut _ _)).trans (Cell.follows_addNotice _ _)
    · exact c.follows_setPortState a _ _
    · exact .refl c

theorem Cell.follows_faultChange (c : Cell) (a : ArmId) (cause : AbortCause) (step : Step) (p : Plan) :
    c.Follows (c.faultChange a cause step p) := by
  simp only [Cell.faultChange]
  exact ((((((c.follows_setSeqState a _ (by simp [SeqState.inCycle]))).trans (Cell.follows_modSeq _ a _ (fun h => h))).trans
    (Cell.follows_placeNamed _ _ _)).trans (Cell.follows_placeNamed _ _ _)).trans (Cell.follows_setPortState _ a _ _)).trans
    (Cell.follows_setPortState _ a _ _)

/-- What an abort sets before the latches that it may set. -/
theorem Cell.follows_afterAbort (c : Cell) (a : ArmId) (cause : AbortCause) (step : Step) (p : Plan) :
    c.Follows (c.afterAbort a cause step p) := by
  simp only [Cell.afterAbort]
  refine Cell.Follows.trans (d := ((c.modSeq a Sequencer.quiet).addNotice (.changeFault a cause step)))
    ((c.follows_modSeq a _ (by simp [Sequencer.quiet])).trans (Cell.follows_addNotice _ _)) ?_
  generalize (c.modSeq a Sequencer.quiet).addNotice (.changeFault a cause step) = c1
  refine Cell.Follows.trans (d := if step.acted then c1.faultChange a cause step p else c1.setSeqState a .idle) ?_ ?_
  · split
    · exact Cell.follows_faultChange _ a cause step p
    · exact Cell.follows_setSeqState _ a _ (by simp [SeqState.inCycle])
  · generalize (if step.acted then c1.faultChange a cause step p else c1.setSeqState a .idle) = c2
    split
    · exact .refl c2
    · exact c2.follows_message a _

/-- The sequencer has left CYCLE before the latches that an abort may set. -/
theorem Cell.afterAbort_ends (c : Cell) (a : ArmId) (cause : AbortCause) (step : Step) (p : Plan) :
    ((c.afterAbort a cause step p).arm a).seq.state.inCycle = false := by
  have key : ∀ d : Cell, (d.arm a).seq.state.inCycle = false →
      ((if cause = .link then d else d.message a (.changeEnd (.aborted cause step))).arm a).seq.state.inCycle = false := by
    intro d h
    split
    · exact h
    · exact Bool.eq_false_iff.2 (fun g => by simp [((d.follows_message a _).arm a).cycle g] at h)
  simp only [Cell.afterAbort]
  generalize (c.modSeq a Sequencer.quiet).addNotice (.changeFault a cause step) = c1
  refine key _ ?_
  split
  · refine Bool.eq_false_iff.2 (fun h => ?_)
    have hf : (c1.setSeqState a (.changeFault cause step p)).Follows (c1.faultChange a cause step p) := by
      simp only [Cell.faultChange]
      exact ((((Cell.follows_modSeq _ a _ (fun h => h)).trans (Cell.follows_placeNamed _ _ _)).trans
        (Cell.follows_placeNamed _ _ _)).trans (Cell.follows_setPortState _ a _ _)).trans (Cell.follows_setPortState _ a _ _)
    have := (hf.arm a).cycle h
    simp [Cell.setSeqState, SeqState.inCycle] at this
  · simp [Cell.setSeqState, SeqState.inCycle]

section Latch
variable (latch : ArmId → StopCause → Cell → Cell) (hl : ∀ a cause c, Cell.Follows c (latch a cause c))
include hl

theorem follows_manualHead (c : Cell) (a : ArmId) (k : Nat) (level : Bool) : c.Follows (manualHead latch c a k level) := by
  simp only [manualHead]; split
  · exact hl a _ c
  · exact .refl c

theorem follows_bayTest (c : Cell) (a : ArmId) (p : Point) : c.Follows (bayTest latch c a p) := by
  simp only [bayTest]
  split
  · exact .refl c
  · split
    · exact hl a _ c
    · exact (hl a _ c).trans (hl _ _ _)

theorem follows_bayRetest (c : Cell) (a : ArmId) : c.Follows (bayRetest latch c a) := by
  simp only [bayRetest]
  split
  · split
    · exact .refl c
    · exact follows_bayTest latch hl c a _
  · exact .refl c

theorem follows_returnPort (a : ArmId) (c : Cell) (k : Nat) : c.Follows (returnPort latch a c k) := by
  simp only [returnPort]
  split
  · exact .refl c
  · refine Cell.Follows.trans ?_ (follows_manualHead latch hl _ a k _)
    split
    · exact c.follows_manualOccupied a k _
    · exact .refl c

theorem follows_returnPorts (a : ArmId) (l : List Nat) (c : Cell) : c.Follows (l.foldl (returnPort latch a) c) := by
  induction l generalizing c with
  | nil => exact .refl c
  | cons k ks ih => exact (follows_returnPort latch hl a c k).trans (ih _)

theorem follows_abortChange (a : ArmId) (cause : AbortCause) (c : Cell) : c.Follows (abortChange latch a cause c) := by
  simp only [abortChange]
  split
  · exact .refl c
  · exact .refl c
  · rename_i step p _
    refine (c.follows_afterAbort a cause step p).trans ?_
    split
    · exact follows_bayRetest latch hl _ a
    · exact follows_returnPorts latch hl a _ _

end Latch

theorem Cell.follows_latchStop (c : Cell) (a : ArmId) (cause : StopCause) : c.Follows (c.latchStop a cause) := by
  simp only [Cell.latchStop]; split
  · exact .refl c
  · exact ((c.follows_modArm a _ (by constructor <;> simp_all)).trans (Cell.follows_message _ a _)).trans (Cell.follows_addNotice _ _)

theorem follows_setStopFuel (n : Nat) (a : ArmId) (cause : StopCause) (c : Cell) : c.Follows (setStopFuel n a cause c) := by
  induction n generalizing a cause c with
  | zero => exact c.follows_latchStop a cause
  | succ n ih =>
    simp only [setStopFuel]; split
    · exact .refl c
    · exact (c.follows_latchStop a cause).trans (follows_abortChange _ ih a .stop _)

theorem follows_setStop (a : ArmId) (cause : StopCause) (c : Cell) : c.Follows (setStop a cause c) := follows_setStopFuel 3 a cause c

theorem Cell.follows_abort (c : Cell) (a : ArmId) (cause : AbortCause) : c.Follows (c.abort a cause) :=
  follows_abortChange _ follows_setStop a cause c

theorem Cell.follows_retest (c : Cell) (a : ArmId) : c.Follows (c.retest a) := follows_bayRetest _ follows_setStop c a

/-- An arm with no change in CYCLE has nothing to abort. -/
theorem Cell.abort_still (c : Cell) (a : ArmId) (cause : AbortCause) (h : (c.arm a).seq.state.inCycle = false) :
    c.abort a cause = c := by
  simp only [Cell.abort, abortChange]
  cases hs : (c.arm a).seq.state <;> simp_all [SeqState.inCycle]

/-- An abort leaves no change of its arm in CYCLE. -/
theorem Cell.abort_ends (c : Cell) (a : ArmId) (cause : AbortCause) : ((c.abort a cause).arm a).seq.state.inCycle = false := by
  simp only [Cell.abort, abortChange]
  split
  · simp_all [SeqState.inCycle]
  · simp_all [SeqState.inCycle]
  · rename_i step p _
    have h := c.afterAbort_ends a cause step p
    refine Bool.eq_false_iff.2 (fun g => ?_)
    split at g
    · simp [((follows_bayRetest _ follows_setStop _ a).arm a).cycle g] at h
    · simp [((follows_returnPorts _ follows_setStop a _ _).arm a).cycle g] at h

/-- Setting the stop latch of an arm with no change in CYCLE does what the latch does alone. -/
theorem setStop_still (a : ArmId) (cause : StopCause) (c : Cell) (h : (c.arm a).seq.state.inCycle = false) :
    setStop a cause c = c.latchStop a cause := by
  simp only [setStop, setStopFuel]
  split
  · rename_i h1; simp [Cell.latchStop, h1]
  · have : ((c.latchStop a cause).arm a).seq.state.inCycle = false :=
      Bool.eq_false_iff.2 (fun h1 => by simp [((c.follows_latchStop a cause).arm a).cycle h1] at h)
    simp only [abortChange]
    cases hs : ((c.latchStop a cause).arm a).seq.state <;> simp_all [SeqState.inCycle]

/-! ### The fuel of a stop latch is never used up -/

/-- How many of the two arms have a change in CYCLE. -/
def Cell.cycles (c : Cell) : Nat := c.armA.seq.state.inCycle.toNat + c.armB.seq.state.inCycle.toNat

theorem Cell.cycles_le_two (c : Cell) : c.cycles ≤ 2 := by
  simp only [Cell.cycles]
  cases c.armA.seq.state.inCycle <;> cases c.armB.seq.state.inCycle <;> simp

theorem Cell.Follows.cycles_le {c c' : Cell} (h : c.Follows c') : c'.cycles ≤ c.cycles := by
  have ha := (h.arm .armA).cycle; have hb := (h.arm .armB).cycle
  simp only [Cell.arm] at ha hb
  simp only [Cell.cycles]
  revert ha hb
  cases c'.armA.seq.state.inCycle <;> cases c'.armB.seq.state.inCycle <;> cases c.armA.seq.state.inCycle <;>
    cases c.armB.seq.state.inCycle <;> simp

/-- A change that has ended leaves fewer changes in CYCLE. -/
theorem Cell.Follows.cycles_lt {c c' : Cell} (h : c.Follows c') (a : ArmId) (h1 : (c.arm a).seq.state.inCycle = true)
    (h2 : (c'.arm a).seq.state.inCycle = false) : c'.cycles < c.cycles := by
  have ha := (h.arm .armA).cycle; have hb := (h.arm .armB).cycle
  cases a <;> simp only [Cell.arm] at ha hb h1 h2 <;> simp only [Cell.cycles, h1, h2] <;> revert ha hb
  · cases c'.armB.seq.state.inCycle <;> cases c.armB.seq.state.inCycle <;> simp
  · cases c'.armA.seq.state.inCycle <;> cases c.armA.seq.state.inCycle <;> simp

/-- Two ways to set a latch that agree wherever at most `n` changes run give the same abort where at most `n + 1` run: the aborted
change has ended before any latch is set. -/
theorem abortChange_congr (latch latch' : ArmId → StopCause → Cell → Cell) (hl : ∀ a cause c, Cell.Follows c (latch a cause c)) (n : Nat)
    (h : ∀ a cause c, c.cycles ≤ n → latch a cause c = latch' a cause c) (a : ArmId) (cause : AbortCause) (c : Cell)
    (hc : c.cycles ≤ n + 1) : abortChange latch a cause c = abortChange latch' a cause c := by
  simp only [abortChange]
  split
  · rfl
  · rfl
  · rename_i step p hs
    have hlt := (c.follows_afterAbort a cause step p).cycles_lt a (by simp [hs, SeqState.inCycle]) (c.afterAbort_ends a cause step p)
    generalize c.afterAbort a cause step p = d at hlt
    have hd : d.cycles ≤ n := by omega
    clear hlt hs
    have head : ∀ (x : Cell) k level, x.cycles ≤ n → manualHead latch x a k level = manualHead latch' x a k level := by
      intro x k level hx
      simp only [manualHead]; split
      · exact h _ _ _ hx
      · rfl
    split
    · simp only [bayRetest, bayTest]
      split
      · split
        · rfl
        · split
          · rfl
          · rw [← h _ _ _ hd]
            split
            · rfl
            · exact h _ _ _ (Nat.le_trans (hl a _ d).cycles_le hd)
      · rfl
    · clear c hc
      generalize p.ports = l
      induction l generalizing d with
      | nil => rfl
      | cons k ks ih =>
        have hk : returnPort latch a d k = returnPort latch' a d k := by
          simp only [returnPort]
          split
          · rfl
          · refine head _ _ _ ?_
            split
            · exact Nat.le_trans (d.follows_manualOccupied a k _).cycles_le hd
            · exact hd
        simp only [List.foldl_cons, ← hk]
        exact ih _ (Nat.le_trans (follows_returnPort latch hl a d k).cycles_le hd)

theorem setStopFuel_succ (n : Nat) (a : ArmId) (cause : StopCause) (c : Cell) (h : c.cycles < n) :
    setStopFuel n a cause c = setStopFuel (n + 1) a cause c := by
  induction n generalizing a cause c with
  | zero => omega
  | succ n ih =>
    show (if (c.arm a).stop.isSome then c else abortChange (setStopFuel n) a .stop (c.latchStop a cause)) =
      if (c.arm a).stop.isSome then c else abortChange (setStopFuel (n + 1)) a .stop (c.latchStop a cause)
    split
    · rfl
    · have hc := (c.follows_latchStop a cause).cycles_le
      match n, ih with
      | 0, _ =>
        have h0 : (((c.latchStop a cause)).arm a).seq.state.inCycle = false := by
          have : (c.latchStop a cause).cycles = 0 := by omega
          revert this
          cases a <;> simp only [Cell.cycles, Cell.arm] <;> cases (Cell.armA _).seq.state.inCycle <;>
            cases (Cell.armB _).seq.state.inCycle <;> simp
        simp only [abortChange]
        cases hs : ((c.latchStop a cause).arm a).seq.state <;> simp_all [SeqState.inCycle]
      | m + 1, ih =>
        exact abortChange_congr _ _ (follows_setStopFuel _) m (fun b k d hd => ih b k d (by omega)) a .stop _ (by omega)

/-- A clear latch takes its cause and the change of its arm is aborted with cause STOP; a set latch stands (R169). -/
theorem setStop_eq (a : ArmId) (cause : StopCause) (c : Cell) :
    setStop a cause c = if (c.arm a).stop.isSome then c else (c.latchStop a cause).abort a .stop := by
  rw [setStop, setStopFuel_succ 3 a cause c (by have := c.cycles_le_two; omega)]
  rfl

end Sys2Proof.Machine
end

