-- ==== Sys2Proof/Laws/Changes.lean ====
section
/-! SUPPORT. The steps of a change, the line events and the cell commands of racks and changes keep what `Cell.Follows` says (R112 to
R137). -/

namespace Sys2Proof.Machine

variable (c : Cell) (a : ArmId)

theorem Cell.follows_entryAction (step : Step) : c.Follows (c.entryAction a step) := by
  cases step <;> simp only [Cell.entryAction] <;>
    first
    | exact .refl c
    | exact c.follows_setLatch a _
    | exact (c.follows_setLatch a true).trans (Cell.follows_modSeq _ a _ (fun h => h))

/-- The level with which a step enters the latch-release output (R125). -/
def Step.latchOn (step : Step) (now : Bool) : Bool :=
  match step with
  | .dropRelease | .pickEngage => true
  | .dropDepart => false
  | _ => now

/-- The latch-release output takes its level, and a change of level starts a mask (R114). -/
theorem Cell.setLatch_eq (level : Bool) :
    c.setLatch a level = c.modArm a (fun m => { m with
      seq := { m.seq with latch := level }
      rack := if m.seq.latch = level then m.rack else m.rack.startMask }) := by
  simp only [Cell.setLatch]
  split
  · rename_i h
    conv => lhs; rw [← c.modArm_id a]
    refine c.modArm_congr a _ _ ?_
    simp only [h, if_true]; rw [← h]
  · rename_i h
    simp only [Cell.modSeq_eq, Cell.modRack_eq, Cell.modArm_modArm]
    exact c.modArm_congr a _ _ (by simp [h])

/-- Entering a step of a running arm: the state with the entry time, the step timer, the latch-release output with its mask, the
engage flag and timer in PICK_ENGAGE, the exit set, CHANGE_STEP handed over, and nothing else (R114, R125, R129, R146). -/
theorem Cell.enterStep_eq (step : Step) (p : Plan) (h : (c.arm a).port.mode = .run) :
    c.enterStep a step p = c.modArm a (fun m =>
      let latch := step.latchOn m.seq.latch
      { m with
        exitSet := m.exitSetAfter (.cycle step { p with entry := c.ms })
        seq := { m.seq with
          state := .cycle step { p with entry := c.ms }
          stepTimer := some (m.rack.params.stepLimits.get step.number 0)
          latch := latch
          engage := step == .pickEngage || m.seq.engage
          engageTimer := if step = .pickEngage then some m.rack.params.engageTime else m.seq.engageTimer }
        rack := if m.seq.latch = latch then m.rack else m.rack.startMask
        port := m.port.handOver (.changeStep step latch) }) := by
  simp only [Cell.enterStep, Cell.setSeqState, Cell.modSeq_eq, Cell.modArm_modArm]
  cases step <;> simp only [Cell.entryAction, Cell.setLatch_eq, Cell.modSeq_eq, Cell.modArm_modArm] <;>
    rw [Cell.message_run _ _ _ (by simp [h])] <;>
    simp only [Cell.handOver_eq, Cell.modArm_modArm] <;>
    refine c.modArm_congr a _ _ ?_ <;>
    (simp [Step.latchOn] <;> rfl)

/-- Entering a step where a change is in CYCLE. -/
theorem Cell.follows_enterStep (step : Step) (p : Plan) (h : (c.arm a).seq.state.inCycle = true) :
    c.Follows (c.enterStep a step p) := by
  simp only [Cell.enterStep]
  exact (((c.follows_setSeqState a _ (fun _ => h)).trans (Cell.follows_modSeq _ a _ (fun h => h))).trans
    (Cell.follows_entryAction _ a step)).trans (Cell.follows_message _ a _)

theorem Cell.follows_judgeStep (step : Step) (p : Plan) : c.Follows (c.judgeStep a step p) := by
  simp only [Cell.judgeStep]
  refine Cell.Follows.trans ?_ (Cell.follows_modSeq _ a _ (fun h => h))
  split
  · exact c.follows_addNotice _
  · exact .refl c

theorem Cell.follows_stepEffect (step : Step) (p : Plan) : c.Follows (c.stepEffect a step p) := by
  simp only [Cell.stepEffect]
  split
  · exact ((c.follows_setPortState a _ _).trans (Cell.follows_placeProbe _ _ _)).trans (Cell.follows_modSeq _ a _ (fun h => h))
  · exact ((c.follows_setPortState a _ _).trans (Cell.follows_placeProbe _ _ _)).trans (Cell.follows_modSeq _ a _ (fun h => h))
  · exact .refl c

theorem Cell.follows_endChange : c.Follows (c.endChange a) := by
  simp only [Cell.endChange]
  exact (((c.follows_modSeq a _ (fun h => h)).trans (Cell.follows_setSeqState _ a _ (by simp [SeqState.inCycle]))).trans
    (Cell.follows_addNotice _ _)).trans (Cell.follows_message _ a _)

/-- A finished step judges its duration against the ring, which it enters, and clears its progress; DROP_DEPART and PICK_DEPART set
the seated field and the state of their port, and no other step touches the rack (R127 to R132). -/
theorem Cell.finishStep_arm (step : Step) (p : Plan) :
    let m := c.arm a
    let n := (c.finishStep a step p).arm a
    let ring := m.seq.rings.get step.number []
    n = { m with
      rack := { m.rack with ports := n.rack.ports }
      seq := { m.seq with
        seated := n.seq.seated, dropOccupied := false, dropId := false, pickOccupied := false, pickHead := false
        rings := m.seq.rings.set step.number ((stepDuration c.ms p.entry :: ring).take 8) } } ∧
    (step ≠ .dropDepart → step ≠ .pickDepart → n.rack = m.rack ∧ n.seq.seated = m.seq.seated) := by
  have hj : (c.judgeStep a step p).arm a = { c.arm a with seq := { (c.arm a).seq with
      rings := (c.arm a).seq.rings.set step.number
        ((stepDuration c.ms p.entry :: (c.arm a).seq.rings.get step.number []).take 8) } } := by
    simp only [Cell.judgeStep]; split <;> simp
  simp only [Cell.finishStep, Cell.stepEffect, Cell.modSeq_eq, Cell.arm_modArm_same]
  split <;> simp [Cell.setPortState, Cell.modRackPort, Cell.placeProbe, hj]

/-- A finished step adds STEP_SLOW exactly if its duration is slow against its ring, and no other notice; the millisecond count stands
(R132). -/
theorem Cell.finishStep_notices (step : Step) (p : Plan) :
    (c.finishStep a step p).notices =
      (if slowAgainst (c.arm a).rack.params ((c.arm a).seq.rings.get step.number []) (stepDuration c.ms p.entry) then
        c.addNotice (.stepSlow a step) else c).notices ∧
    (c.finishStep a step p).ms = c.ms := by
  have hj : (c.judgeStep a step p).notices = (if slowAgainst (c.arm a).rack.params ((c.arm a).seq.rings.get step.number [])
      (stepDuration c.ms p.entry) then c.addNotice (.stepSlow a step) else c).notices ∧ (c.judgeStep a step p).ms = c.ms := by
    simp only [Cell.judgeStep]; split <;> simp
  simp only [Cell.finishStep, Cell.stepEffect]
  split <;> simp [Cell.setPortState, Cell.modRackPort, Cell.placeProbe, hj]

/-- A step with a next one completes by entering it; DROP_DEPART and PICK_DEPART are followed by the bay test (R125, R172). -/
theorem Cell.completeStep_enters (step next : Step) (p : Plan) (h : (c.arm a).seq.state = .cycle step p)
    (hn : p.next step = some next) :
    c.completeStep a =
      if step = .dropDepart ∨ step = .pickDepart then ((c.finishStep a step p).enterStep a next p).retest a
      else (c.finishStep a step p).enterStep a next p := by
  simp only [Cell.completeStep, h, hn]

theorem Cell.follows_finishStep (step : Step) (p : Plan) : c.Follows (c.finishStep a step p) :=
  ((c.follows_judgeStep a step p).trans (Cell.follows_stepEffect _ a step p)).trans (Cell.follows_modSeq _ a _ (fun h => h))

theorem Cell.follows_completeStep : c.Follows (c.completeStep a) := by
  simp only [Cell.completeStep]
  split
  · exact .refl c
  · exact .refl c
  · rename_i step p hs
    have h1 := c.follows_finishStep a step p
    have h2 : ((c.finishStep a step p).arm a).seq.state = (c.arm a).seq.state := by rw [(c.finishStep_arm a step p).1]
    generalize c.finishStep a step p = c2 at h1 h2
    have h3 : c.Follows (match p.next step with | some st => c2.enterStep a st p | none => c2.endChange a) := by
      split
      · exact h1.trans (c2.follows_enterStep a _ p (by rw [h2, hs]; rfl))
      · exact h1.trans (c2.follows_endChange a)
    split
    · exact h3.trans (Cell.follows_retest _ a)
    · exact h3

theorem Cell.follows_planPortChange (step : Step) (p : Plan) (k : Nat) (line : PortLine) (level : Bool) :
    c.Follows (c.planPortChange a step p k line level) := by
  have ha : c.Follows (c.abort a .sensor) := c.follows_abort a _
  have hc : c.Follows (c.completeStep a) := c.follows_completeStep a
  have hm : ∀ f : Sequencer → Sequencer, (∀ q, (f q).state = q.state) → c.Follows ((c.modSeq a f)) :=
    fun f h => c.follows_modSeq a f (by rw [h]; exact id)
  have hn : ∀ f : Sequencer → Sequencer, (∀ q, (f q).state = q.state) → c.Follows ((c.modSeq a f).completeStep a) :=
    fun f h => (hm f h).trans (Cell.follows_completeStep _ a)
  simp only [Cell.planPortChange]
  split <;> (try split) <;> first
    | assumption
    | (split
       · exact hn _ (fun _ => rfl)
       · exact hm _ (fun _ => rfl))

theorem Cell.follows_manualChange (k : Nat) (line : PortLine) (level : Bool) : c.Follows (c.manualChange a k line level) := by
  cases line
  · exact c.follows_manualOccupied a k level
  · exact follows_manualHead _ follows_setStop c a k level

theorem Cell.follows_dispatchLine (k : Nat) (line : PortLine) (level : Bool) : c.Follows (c.dispatchLine a k line level) := by
  simp only [Cell.dispatchLine]
  split
  · exact .refl c
  · split
    · exact .refl c
    · split
      · exact c.follows_manualChange a k line level
      · split
        · exact c.follows_planPortChange a _ _ k line level
        · exact c.follows_manualChange a k line level
      · split
        · split
          · exact .refl c
          · exact follows_manualHead _ follows_setStop c a k level
        · exact c.follows_manualChange a k line level

/-! ### Line events -/

theorem Cell.follows_takeLine (k : Nat) (line : PortLine) : c.Follows (c.takeLine a k line) := by
  simp only [Cell.takeLine]
  split
  · exact .refl c
  · split
    · exact c.follows_modRack a _
    · exact Cell.Follows.trans (by exact c.follows_modRack a _) (Cell.follows_dispatchLine _ a k line _)

theorem Cell.follows_lineChange (k : Nat) (line : PortLine) (level : Bool) : c.Follows (c.lineChange a k line level) := by
  have hp : c.Follows (c.setPin a k line level) := c.follows_modRack a _
  have hr : ∀ f, (c.setPin a k line level).Follows ((c.setPin a k line level).modRackPort a k f) := fun f => Cell.follows_modRack _ a _
  simp only [Cell.lineChange]
  split
  · exact .refl c
  · split
    · exact hp
    · split
      · exact hp
      · split
        · exact hp.trans (hr _)
        · split
          · exact hp.trans (Cell.follows_takeLine _ a k line)
          · exact hp.trans (hr _)

theorem Cell.follows_filterExpiry (k : Nat) (line : PortLine) : c.Follows (c.filterExpiry a k line) := by
  simp only [Cell.filterExpiry]
  split
  · exact .refl c
  · split
    · exact c.follows_takeLine a k line
    · exact .refl c

theorem Cell.follows_takeLines (l : List (Nat × PortLine)) : c.Follows (l.foldl (fun c x => c.takeLine a x.1 x.2) c) := by
  induction l generalizing c with
  | nil => exact .refl c
  | cons x xs ih => exact (c.follows_takeLine a x.1 x.2).trans (ih _)

theorem Cell.follows_maskEnd : c.Follows (c.maskEnd a) := by
  simp only [Cell.maskEnd]
  split
  · exact (c.follows_modRack a _).trans (Cell.follows_takeLines _ a _)
  · exact .refl c

/-! ### Timers and requests of a change -/

theorem Cell.follows_stepTimerExpiry : c.Follows (c.stepTimerExpiry a) := by
  simp only [Cell.stepTimerExpiry]
  split
  · exact (c.follows_modSeq a _ (fun h => h)).trans (Cell.follows_abort _ a _)
  · exact .refl c

theorem Cell.follows_engageTimerExpiry : c.Follows (c.engageTimerExpiry a) := by
  simp only [Cell.engageTimerExpiry]
  split
  · exact ((c.follows_modSeq a _ (fun h => h)).trans (Cell.follows_setLatch _ a _)).trans (Cell.follows_message _ a _)
  · exact .refl c

theorem follows_serveChangeAbort (tag : Nat) : c.Follows (serveChangeAbort a tag c) := by
  simp only [serveChangeAbort]
  split
  · exact (c.follows_handOver a _).trans (Cell.follows_abort _ a _)
  · exact c.follows_handOver a _

theorem follows_serveReportStaged (tag : Nat) : c.Follows (serveReportStaged a tag c) := by
  simp only [serveReportStaged]
  split
  · exact c.follows_handOver a _
  · split
    · exact (c.follows_handOver a _).trans (Cell.follows_completeStep _ a)
    · exact (c.follows_handOver a _).trans (Cell.follows_completeStep _ a)
    · exact c.follows_handOver a _

theorem follows_serveReportId (tag code : Nat) : c.Follows (serveReportId a tag code c) := by
  have hh : ∀ st, c.Follows (c.respond a .reportId tag st 0 0) := fun st => c.follows_handOver a _
  simp only [serveReportId]
  split
  · exact hh _
  · split
    · split
      · have h1 : c.Follows ((c.respond a .reportId tag .ok 0 0).modSeq a (fun q => { q with dropId := true })) :=
          (hh _).trans (Cell.follows_modSeq _ a _ (fun h => h))
        split
        · exact h1.trans (Cell.follows_completeStep _ a)
        · exact h1
      · exact hh _
    · split
      · exact hh _
      · split
        · exact (hh _).trans (Cell.follows_completeStep _ a)
        · exact (hh _).trans (Cell.follows_abort _ a _)
    · exact hh _

/-! ### CHANGE_RESOLVE -/

theorem Cell.follows_resolvePort (port : Option Nat) (entry seated : Nat) (from? : Option Nat) :
    c.Follows (c.resolvePort a port entry seated from?) := by
  cases port with
  | none => exact .refl c
  | some k =>
    simp only [Cell.resolvePort]
    split
    · exact (c.follows_setPortState a _ _).trans (Cell.follows_placeProbe _ _ _)
    · split
      · exact c.follows_setPortState a _ _
      · exact c.follows_setPortState a _ _

theorem Cell.follows_resolveUnnamed (p : Option Nat) (seated drop pick : Nat) : c.Follows (c.resolveUnnamed p seated drop pick) := by
  cases p with
  | none => exact .refl c
  | some n =>
    simp only [Cell.resolveUnnamed]
    split
    · exact .refl c
    · exact c.follows_probeOut n

theorem Cell.follows_resolveChange (p : Plan) (seated drop pick : Nat) : c.Follows (c.resolveChange a p seated drop pick) := by
  have h1 := (c.follows_resolvePort a p.drop drop seated p.old).trans (Cell.follows_resolvePort _ a p.pick pick seated p.target)
  have h2 := h1.trans (Cell.follows_modSeq _ a (fun q => { q with seated := resolvedSeat seated }) (fun h => h))
  simp only [Cell.resolveChange]
  refine Cell.Follows.trans ?_ (Cell.follows_retest _ a)
  refine Cell.Follows.trans ?_ (Cell.follows_setSeqState _ a _ (by simp [SeqState.inCycle]))
  refine Cell.Follows.trans ?_ (Cell.follows_setLatch _ a _)
  refine Cell.Follows.trans ?_ (Cell.follows_resolveUnnamed _ _ seated drop pick)
  refine Cell.Follows.trans ?_ (Cell.follows_resolveUnnamed _ _ seated drop pick)
  refine h2.trans ?_
  split
  · exact .refl _
  · exact Cell.follows_placeProbe _ _ _

end Sys2Proof.Machine
end

