-- ==== Sys2Proof/Laws/Commands.lean ====
section
/-! SUPPORT. Every command of the cell link runs through the one operation `State.command`, with the code and the length of its own
frame (R194, R202). -/

namespace Sys2Proof.Machine

@[simp] theorem scaleFieldWords_length (s : Scale) : (scaleFieldWords s).length = 3 := rfl

@[simp] theorem groupFieldWords_length (g : ArmGroups) : (groupFieldWords g).length = 4 := rfl

/-- The length of a list field: so many words for each entry. -/
theorem flatMap_length {α : Type} (f : α → List Word) (n : Nat) (h : ∀ x, (f x).length = n) (l : List α) :
    (l.flatMap f).length = n * l.length := by
  induction l with
  | nil => rfl
  | cons x xs ih => simp [List.flatMap_cons, h, ih, Nat.mul_add]; omega

theorem listFieldWords_length {α : Type} (f : α → List Word) (n : Nat) (h : ∀ x, (f x).length = n) (l : List α) :
    (listFieldWords f l).length = 1 + n * l.length := by
  simp [listFieldWords, flatMap_length f n h]

theorem paramsFieldWords_length (p : PortParams) : (paramsFieldWords p).length = 13 := by
  simp [paramsFieldWords, flatMap_length (fun (t : Nat) => word t) 1 (fun _ => rfl), p.stepLimits.property]

/-- A command of the cell link other than RESET is `State.command` with its own code and the length of its own frame. -/
theorem exec_command (c : Instr) (code : Nat) (fields : List Word) (h : commandWords c = some (code, fields)) (hr : c ≠ .reset) :
    ∃ serve, ∀ s, exec c s = s.command (BitVec.ofNat 16 code) (fields.length + 2) serve := by
  have key : ∀ (n : Nat) (w : Word) (serve : Device → Served), n = fields.length + 2 → w = BitVec.ofNat 16 code →
      ∃ serve', ∀ s : State, s.command w n serve = s.command (BitVec.ofNat 16 code) (fields.length + 2) serve' := by
    rintro n w serve rfl rfl; exact ⟨serve, fun _ => rfl⟩
  cases c <;> simp only [commandWords, reduceCtorEq, Option.some.injEq, Prod.mk.injEq] at h <;>
    first
    | exact absurd rfl hr
    | (obtain ⟨rfl, rfl⟩ := h
       refine key _ _ _ ?_ rfl
       simp [listFieldWords_length boxWords 12 (fun _ => rfl), listFieldWords_length mapNodeWords 4 (fun _ => rfl),
         listFieldWords_length tipFieldWords 8 (fun _ => rfl), paramsFieldWords_length, settingsFieldWords]
       try omega)

end Sys2Proof.Machine
end

