-- ==== Sys2Proof/Laws/Wire.lean ====
section
/-! SUPPORT. What the readers of Machine/Wire.lean answer on the words of a field that fits (R202): the value and the rest. -/

namespace Sys2Proof.Machine

@[simp] theorem readWord_word (v : Nat) (ws : List Word) (h : fitsWord v = true) : readWord (word v ++ ws) = some (v, ws) := by
  simp only [fitsWord, decide_eq_true_eq] at h
  simp only [word, List.cons_append, List.nil_append, readWord, BitVec.toNat_ofInt]
  congr 2
  omega

@[simp] theorem readSigned_word (v : Int) (ws : List Word) (h : fitsSigned v = true) : readSigned (word v ++ ws) = some (v, ws) := by
  simp only [fitsSigned, Bool.and_eq_true, decide_eq_true_eq] at h
  simp only [word, List.cons_append, List.nil_append, readSigned, BitVec.toInt_ofInt]
  congr 2
  rw [Int.bmod_eq_of_le] <;> omega

@[simp] theorem readLong_word2 (v : Nat) (ws : List Word) (h : fitsLong v = true) : readLong (word2 v ++ ws) = some (v, ws) := by
  simp only [fitsLong, decide_eq_true_eq] at h
  simp only [word2, List.cons_append, List.nil_append, readLong, BitVec.toNat_ofInt]
  congr 2
  omega

@[simp] theorem readPosition_word2 (v : Int) (ws : List Word) (h : fitsPosition v = true) :
    readPosition (word2 v ++ ws) = some (v, ws) := by
  simp only [fitsPosition, Bool.and_eq_true, decide_eq_true_eq] at h
  simp only [word2, List.cons_append, List.nil_append, readPosition, BitVec.toNat_ofInt, BitVec.toInt_ofInt]
  congr 2
  rw [Int.bmod_eq_of_le] <;> omega

@[simp] theorem readPoint_pointWords (p : Point) (ws : List Word) (h : p.fits = true) : readPoint (pointWords p ++ ws) = some (p, ws) := by
  simp only [Point.fits, Bool.and_eq_true] at h
  obtain ⟨⟨hx, hy⟩, hz⟩ := h
  simp [readPoint, pointWords, List.append_assoc, readPosition_word2, hx, hy, hz]

@[simp] theorem readBox_boxWords (b : Box) (ws : List Word) (h : b.fits = true) : readBox (boxWords b ++ ws) = some (b, ws) := by
  simp only [Box.fits, Point.fits, Bool.and_eq_true] at h
  obtain ⟨⟨⟨h1, h2⟩, h3⟩, ⟨h4, h5⟩, h6⟩ := h
  simp [readBox, boxWords, List.append_assoc, readPosition_word2, h1, h2, h3, h4, h5, h6]

@[simp] theorem readScale_words (s : Scale) (ws : List Word) (h : s.fits = true) : readScale (scaleFieldWords s ++ ws) = some (s, ws) := by
  simp only [Scale.fits, Bool.and_eq_true] at h
  simp [readScale, scaleFieldWords, List.append_assoc, readPosition_word2, readWord_word, h.1, h.2]

@[simp] theorem readNodeEntry_words (e : MapNode) (ws : List Word) (h : e.fits = true) :
    readNodeEntry (mapNodeWords e ++ ws) = some (e, ws) := by
  simp only [MapNode.fits, Bool.and_eq_true] at h
  obtain ⟨⟨⟨h1, h2⟩, h3⟩, h4⟩ := h
  simp [readNodeEntry, mapNodeWords, List.append_assoc, readSigned_word, h1, h2, h3, h4]

@[simp] theorem readTip_words (t : TipGeometry) (ws : List Word) (h : t.fits = true) : readTip (tipFieldWords t ++ ws) = some (t, ws) := by
  simp only [TipGeometry.fits, Bool.and_eq_true] at h
  simp [readTip, tipFieldWords, List.append_assoc, readPoint_pointWords, readPosition_word2, h.1, h.2]

@[simp] theorem readGroups_words (g : ArmGroups) (ws : List Word) (h : g.fits = true) :
    readGroups (groupFieldWords g ++ ws) = some (g, ws) := by
  simp only [ArmGroups.fits, Bool.and_eq_true] at h
  obtain ⟨⟨⟨h1, h2⟩, h3⟩, h4⟩ := h
  simp [readGroups, groupFieldWords, List.append_assoc, readWord_word, h1, h2, h3, h4]

/-- A reader that reads back every entry of a list reads back the list. -/
theorem readMany_flatMap {α : Type} (r : Reader α) (f : α → List Word) (l : List α) (ws : List Word)
    (h : ∀ x ∈ l, ∀ us, r (f x ++ us) = some (x, us)) : readMany r l.length (l.flatMap f ++ ws) = some (l, ws) := by
  induction l with
  | nil => simp [readMany]
  | cons x xs ih =>
    have hx := h x (by simp)
    have hxs := ih (fun y hy => h y (by simp [hy]))
    simp [readMany, List.append_assoc, hx, hxs]

theorem readList_words {α : Type} (r : Reader α) (f : α → List Word) (fits : α → Bool) (l : List α) (ws : List Word)
    (h : ∀ x us, fits x = true → r (f x ++ us) = some (x, us)) (hl : fitsList fits l = true) :
    readList r (listFieldWords f l ++ ws) = some (l, ws) := by
  simp only [fitsList, Bool.and_eq_true, List.all_eq_true] at hl
  have hn := readWord_word l.length (l.flatMap f ++ ws) hl.1
  have hm := readMany_flatMap r f l ws (fun x hx us => h x us (hl.2 x hx))
  simp [readList, listFieldWords, List.append_assoc, hn, hm]

@[simp] theorem readSettings_words (s : ArmSettings) (ws : List Word) (h : s.fits = true) :
    readSettings (settingsFieldWords s ++ ws) = some (s, ws) := by
  simp only [ArmSettings.fits, Bool.and_eq_true] at h
  obtain ⟨⟨⟨⟨⟨⟨⟨⟨⟨⟨h1, h2⟩, h3⟩, h4⟩, h5⟩, h6⟩, h7⟩, h8⟩, h9⟩, h10⟩, h11⟩ := h
  simp [readSettings, settingsFieldWords, List.append_assoc, readBox_boxWords, readScale_words, readPosition_word2,
    readWord_word, h1, h2, h3, h4, h5, h6, h7, h8, h9, h10, h11]

/-- A one-word field is read and the reading goes on. -/
theorem bind_readWord {α : Type} (v : Nat) (ws : List Word) (k : Nat × List Word → Option α) (h : fitsWord v = true) :
    (readWord (word v ++ ws) >>= k) = k (v, ws) := by
  rw [readWord_word v ws h]; rfl

/-- The same of a signed one-word field. -/
theorem bind_readSigned {α : Type} (v : Int) (ws : List Word) (k : Int × List Word → Option α) (h : fitsSigned v = true) :
    (readSigned (word v ++ ws) >>= k) = k (v, ws) := by
  rw [readSigned_word v ws h]; rfl

@[simp] theorem readParams_words (p : PortParams) (ws : List Word) (h : p.fits = true) :
    readParams (paramsFieldWords p ++ ws) = some (p, ws) := by
  obtain ⟨ft, mt, ⟨sl, hsl⟩, et, le, sf⟩ := p
  match sl, hsl with
  | [l1, l2, l3, l4, l5, l6, l7, l8], _ =>
    simp only [PortParams.fits, Bool.and_eq_true, List.all_cons, List.all_nil] at h
    obtain ⟨⟨⟨⟨⟨h1, h2⟩, k1, k2, k3, k4, k5, k6, k7, k8, _⟩, h3⟩, h4⟩, h5⟩ := h
    unfold readParams paramsFieldWords
    simp only [List.append_assoc, List.flatMap_cons, List.flatMap_nil, List.nil_append]
    rw [bind_readWord _ _ _ h1]; dsimp only
    rw [bind_readWord _ _ _ h2]; dsimp only
    rw [bind_readWord _ _ _ k1]; dsimp only
    rw [bind_readWord _ _ _ k2]; dsimp only
    rw [bind_readWord _ _ _ k3]; dsimp only
    rw [bind_readWord _ _ _ k4]; dsimp only
    rw [bind_readWord _ _ _ k5]; dsimp only
    rw [bind_readWord _ _ _ k6]; dsimp only
    rw [bind_readWord _ _ _ k7]; dsimp only
    rw [bind_readWord _ _ _ k8]; dsimp only
    rw [bind_readWord _ _ _ h3]; dsimp only
    rw [bind_readWord _ _ _ h4]; dsimp only
    rw [bind_readWord _ _ _ h5]

@[simp] theorem readList_boxes (l : List Box) (ws : List Word) (h : fitsList Box.fits l = true) :
    readList readBox (listFieldWords boxWords l ++ ws) = some (l, ws) :=
  readList_words readBox boxWords Box.fits l ws readBox_boxWords h

@[simp] theorem readList_nodes_last (l : List MapNode) (h : fitsList MapNode.fits l = true) :
    readList readNodeEntry (listFieldWords mapNodeWords l) = some (l, []) := by
  simpa using readList_words readNodeEntry mapNodeWords MapNode.fits l [] readNodeEntry_words h

@[simp] theorem readList_tips_last (l : List TipGeometry) (h : fitsList TipGeometry.fits l = true) :
    readList readTip (listFieldWords tipFieldWords l) = some (l, []) := by
  simpa using readList_words readTip tipFieldWords TipGeometry.fits l [] readTip_words h

/-! ### The readers at the end of a frame -/

@[simp] theorem readWord_last (v : Nat) (h : fitsWord v = true) : readWord (word v) = some (v, []) := by
  simpa using readWord_word v [] h

@[simp] theorem readSigned_last (v : Int) (h : fitsSigned v = true) : readSigned (word v) = some (v, []) := by
  simpa using readSigned_word v [] h

@[simp] theorem readPosition_last (v : Int) (h : fitsPosition v = true) : readPosition (word2 v) = some (v, []) := by
  simpa using readPosition_word2 v [] h

/-- The last one-word field is read and the reading goes on. -/
theorem bind_readWord_last {α : Type} (v : Nat) (k : Nat × List Word → Option α) (h : fitsWord v = true) :
    (readWord (word v) >>= k) = k (v, []) := by
  rw [readWord_last v h]; rfl

@[simp] theorem readPoint_last (p : Point) (h : p.fits = true) : readPoint (pointWords p) = some (p, []) := by
  simpa using readPoint_pointWords p [] h

@[simp] theorem readSettings_last (s : ArmSettings) (h : s.fits = true) : readSettings (settingsFieldWords s) = some (s, []) := by
  simpa using readSettings_words s [] h

@[simp] theorem readParams_last (p : PortParams) (h : p.fits = true) : readParams (paramsFieldWords p) = some (p, []) := by
  simpa using readParams_words p [] h

@[simp] theorem readGroups_last (g : ArmGroups) (h : g.fits = true) : readGroups (groupFieldWords g) = some (g, []) := by
  simpa using readGroups_words g [] h

/-! ### Bits (R193, R202) -/

/-- A word is the word of its own bits. -/
theorem bitsWord_wordBits (w : Word) : bitsWord (wordBits w) = w := by
  have h : ∀ n (v : BitVec 16), n ≤ 16 → (((List.range n).map (fun i => v.getMsbD i)).foldl (fun n b => 2 * n + b.toNat) 0) =
      v.toNat / 2 ^ (16 - n) := by
    intro n v hn
    induction n with
    | zero => simp; omega
    | succ n ih =>
      rw [List.range_succ, List.map_append, List.foldl_append, ih (by omega)]
      simp only [List.map_cons, List.map_nil, List.foldl_cons, List.foldl_nil, BitVec.getMsbD, BitVec.getLsbD, Nat.testBit,
        Nat.shiftRight_eq_div_pow]
      have e : 16 - n = (16 - (n+1)) + 1 := by omega
      rw [e, Nat.pow_succ, ← Nat.div_div_eq_div_mul]
      simp only [show (n < 16) = True from by simp; omega, decide_true, Bool.true_and, Nat.one_and_eq_mod_two]
      rw [show (16 - 1 - n) = 16 - (n+1) by omega]
      generalize v.toNat / 2 ^ (16 - (n + 1)) = x
      rcases Nat.mod_two_eq_zero_or_one x with g | g <;> simp [g] <;> omega
  have := h 16 w (Nat.le_refl 16)
  simp only [bitsWord, wordBits, this]
  simp

/-- The bits of some words are read back to those words. -/
theorem wholeWords_wordBits (ws : List Word) : wholeWords ws.length (ws.flatMap wordBits) = ws := by
  induction ws with
  | nil => rfl
  | cons w ws ih =>
    have hl : (wordBits w).length = 16 := by simp [wordBits]
    simp only [List.length_cons, wholeWords, List.flatMap_cons]
    rw [show 16 = (wordBits w).length from hl.symm, List.take_left, List.drop_left, bitsWord_wordBits, ih]

theorem wordBits_flatMap_length (ws : List Word) : (ws.flatMap wordBits).length = 16 * ws.length := by
  induction ws with
  | nil => rfl
  | cons w ws ih => simp [List.flatMap_cons, ih, wordBits]; omega

/-- A frame of whole words is judged by its bits as by its words. -/
theorem judgeCellBits_words (ws : List Word) : judgeCellBits (ws.flatMap wordBits) = judgeCellFrame (16 * ws.length) ws := by
  rw [judgeCellBits, wordBits_flatMap_length, show 16 * ws.length / 16 = ws.length by omega, wholeWords_wordBits]

theorem wordBits_length (w : Word) : (wordBits w).length = 16 := by simp [wordBits]

/-- The words clocked out: the queue first, then idle words (R193). -/
theorem CellLink.wordsOut_length (l : CellLink) (n : Nat) : (l.wordsOut n).length = n := by
  simp [CellLink.wordsOut]

theorem CellLink.wordsOut_get (l : CellLink) (n i : Nat) (h : i < n) : (l.wordsOut n)[i]? = some ((l.queue[i]?).getD 65535) := by
  simp only [CellLink.wordsOut, List.getElem?_take, h, if_true, List.getElem?_append]
  split
  · rename_i hq; simp [List.getElem?_eq_getElem hq]
  · rename_i hq; simp [List.getElem?_eq_none (Nat.le_of_not_lt hq), List.getElem?_replicate, Config.idleWord]; omega

/-! ### Framing (R204, R205) -/

/-- Where a start byte is awaited, another byte is skipped and a gap ends nothing. -/
theorem framesOf_skip (whole : List Byte → Bool) (x : Byte) (rest : List (Option Byte)) (h : x ≠ 126) :
    framesOf whole [] (some x :: rest) = framesOf whole [] rest := by
  rw [framesOf, if_neg h]

theorem framesOf_gap (whole : List Byte → Bool) (b : Byte) (bs : List Byte) (rest : List (Option Byte)) :
    framesOf whole (b :: bs) (none :: rest) = (b :: bs) :: framesOf whole [] rest := rfl

/-! ### Judging -/

/-- A frame whose fields are read back to a command is judged to be that command (R192, R202). -/
theorem judgeCellFrame_command (i : Instr) (code : Nat) (fields : List Word) (hc : code < 65535)
    (hp : parseFields code fields = some (i, [])) :
    judgeCellFrame (16 * (fields.length + 2))
      (BitVec.ofNat 16 code :: fields ++ [checkWord (BitVec.ofNat 16 code :: fields)]) = some i := by
  have hcode : (BitVec.ofNat 16 code).toNat = code := by simp [BitVec.toNat_ofNat]; omega
  have hidle : BitVec.ofNat 16 code ≠ 65535#16 := by
    intro e
    have h := congrArg BitVec.toNat e
    rw [hcode] at h
    simp at h
    omega
  have hframe : frameCommand (BitVec.ofNat 16 code :: fields ++ [checkWord (BitVec.ofNat 16 code :: fields)]) = some i := by
    cases fields with
    | nil => simp [frameCommand, hcode, hp]
    | cons f fs =>
      have : (f :: (fs ++ [checkWord (BitVec.ofNat 16 code :: f :: fs)])).dropLast = f :: fs := by
        rw [← List.cons_append, List.dropLast_concat]
      simp [frameCommand, hcode, this, hp]
  have hlast : (BitVec.ofNat 16 code :: fields ++ [checkWord (BitVec.ofNat 16 code :: fields)]).dropLast
      = BitVec.ofNat 16 code :: fields := List.dropLast_concat
  have hget : (BitVec.ofNat 16 code :: fields ++ [checkWord (BitVec.ofNat 16 code :: fields)]).getLast?
      = some (checkWord (BitVec.ofNat 16 code :: fields)) := List.getLast?_concat
  unfold judgeCellFrame
  rw [if_neg (by omega), if_neg (by simp [hidle]), hframe, hlast, hget]
  simp

end Sys2Proof.Machine
end

