-- ==== Sys2Proof/Laws/PerInstr.lean ====
section
/-! SUPPORT. The family WireForm: the frame of a well-formed command is judged to be that command (R192, R202), so no bit of a
field is lost on the cell link. One lemma for each constructor; an event that is no command frame has no frame. -/

open Sys2Proof.Machine

namespace Sys2Proof.Laws.WireForm

set_option Elab.async false

/-- The frame of a well-formed command, clocked whole, is judged to be that command. -/
def Statement (i : Instr) : Prop :=
  i.wf = true → ∀ ws, commandFrame i = some ws → judgeCellFrame (16 * ws.length) ws = some i

/-- An event that has no command words has no frame. -/
theorem of_none {i : Instr} (h : commandWords i = none) : Statement i := by
  intro _ ws hw
  simp [commandFrame, h] at hw

/-- A command whose fields are read back. -/
theorem of_parse {i : Instr} {code : Nat} {fields : List Word} (h : commandWords i = some (code, fields)) (hc : code < 65535)
    (hp : i.wf = true → parseFields code fields = some (i, [])) : Statement i := by
  intro hwf ws hw
  simp only [commandFrame, h, Option.some.injEq] at hw
  subst hw
  have := judgeCellFrame_command i code fields hc (hp hwf)
  simpa using this

theorem armConfig (arm : Nat) (settings : ArmSettings) : Statement (.armConfig arm settings) := by
  refine of_parse rfl (by decide) (fun h => ?_)
  simp only [Instr.wf, Bool.and_eq_true] at h
  simp_all [parseFields, parseConfiguration]

theorem portConfig (arm count : Nat) (boxes : List Box) (params : PortParams) :
    Statement (.portConfig arm count boxes params) := by
  refine of_parse rfl (by decide) (fun h => ?_)
  simp only [Instr.wf, Bool.and_eq_true] at h
  simp_all [parseFields, parseConfiguration]

theorem bayConfig (count : Nat) (origin width : Int) : Statement (.bayConfig count origin width) := by
  refine of_parse rfl (by decide) (fun h => ?_)
  simp only [Instr.wf, Bool.and_eq_true] at h
  simp_all [parseFields, parseConfiguration]

theorem workpieceSet (group alpha : Nat) (datumA datumB : Point) : Statement (.workpieceSet group alpha datumA datumB) := by
  refine of_parse rfl (by decide) (fun h => ?_)
  simp only [Instr.wf, Bool.and_eq_true] at h
  simp_all [parseFields, parseConfiguration]

theorem busSet (period timeout shortRetries longRetry rejoin : Nat) :
    Statement (.busSet period timeout shortRetries longRetry rejoin) := by
  refine of_parse rfl (by decide) (fun h => ?_)
  simp only [Instr.wf, Bool.and_eq_true] at h
  simp_all [parseFields, parseConfiguration]

theorem nodeAdd (node address channels : Nat) : Statement (.nodeAdd node address channels) := by
  refine of_parse rfl (by decide) (fun h => ?_)
  simp only [Instr.wf, Bool.and_eq_true] at h
  simp_all [parseFields, parseConfiguration]

theorem nodeRemove (node : Nat) : Statement (.nodeRemove node) := by
  refine of_parse rfl (by decide) (fun h => ?_)
  simp only [Instr.wf] at h
  simp_all [parseFields, parseConfiguration]

theorem channelSet (channel node index group window : Nat) (stepLimit : Int) (fine longStale rejectLimit staleTime : Nat) :
    Statement (.channelSet channel node index group window stepLimit fine longStale rejectLimit staleTime) := by
  refine of_parse rfl (by decide) (fun h => ?_)
  simp only [Instr.wf, Bool.and_eq_true] at h
  obtain ⟨⟨⟨⟨⟨⟨⟨⟨⟨h1, h2⟩, h3⟩, h4⟩, h5⟩, h6⟩, h7⟩, h8⟩, h9⟩, h10⟩ := h
  show parseConfiguration 264 _ = _
  unfold parseConfiguration
  simp only [List.append_assoc]
  rw [bind_readWord _ _ _ h1]; dsimp only
  rw [bind_readWord _ _ _ h2]; dsimp only
  rw [bind_readWord _ _ _ h3]; dsimp only
  rw [bind_readWord _ _ _ h4]; dsimp only
  rw [bind_readWord _ _ _ h5]; dsimp only
  rw [bind_readSigned _ _ _ h6]; dsimp only
  rw [bind_readWord _ _ _ h7]; dsimp only
  rw [bind_readWord _ _ _ h8]; dsimp only
  rw [bind_readWord _ _ _ h9]; dsimp only
  rw [bind_readWord_last _ _ h10]

theorem channelRemove (channel : Nat) : Statement (.channelRemove channel) := by
  refine of_parse rfl (by decide) (fun h => ?_)
  simp only [Instr.wf] at h
  simp_all [parseFields, parseConfiguration]

theorem groupSet (group hold : Nat) (spread : Int) : Statement (.groupSet group hold spread) := by
  refine of_parse rfl (by decide) (fun h => ?_)
  simp only [Instr.wf, Bool.and_eq_true] at h
  simp_all [parseFields, parseConfiguration]

theorem tempSet (drift : Int) (groupsA groupsB : ArmGroups) : Statement (.tempSet drift groupsA groupsB) := by
  refine of_parse rfl (by decide) (fun h => ?_)
  simp only [Instr.wf, Bool.and_eq_true] at h
  simp_all [parseFields, parseConfiguration]

theorem mapOpen (arm axis tag : Nat) (origin spacing : Int) (count : Nat) :
    Statement (.mapOpen arm axis tag origin spacing count) := by
  refine of_parse rfl (by decide) (fun h => ?_)
  simp only [Instr.wf, Bool.and_eq_true] at h
  simp_all [parseFields, parseMaps]

theorem mapNodes (arm axis first : Nat) (entries : List MapNode) : Statement (.mapNodes arm axis first entries) := by
  refine of_parse rfl (by decide) (fun h => ?_)
  simp only [Instr.wf, Bool.and_eq_true] at h
  simp_all [parseFields, parseMaps]

theorem mapClose (arm axis : Nat) : Statement (.mapClose arm axis) := by
  refine of_parse rfl (by decide) (fun h => ?_)
  simp only [Instr.wf, Bool.and_eq_true] at h
  simp_all [parseFields, parseMaps]

theorem mapClear (arm axis : Nat) : Statement (.mapClear arm axis) := by
  refine of_parse rfl (by decide) (fun h => ?_)
  simp only [Instr.wf, Bool.and_eq_true] at h
  simp_all [parseFields, parseMaps]

theorem probeDefine (probe code home count touchLimit : Nat) (tips : List TipGeometry) :
    Statement (.probeDefine probe code home count touchLimit tips) := by
  refine of_parse rfl (by decide) (fun h => ?_)
  simp only [Instr.wf, Bool.and_eq_true] at h
  simp_all [parseFields, parseProbes]

theorem tipQualify (probe tip : Nat) (offset : Point) (radius : Int) : Statement (.tipQualify probe tip offset radius) := by
  refine of_parse rfl (by decide) (fun h => ?_)
  simp only [Instr.wf, Bool.and_eq_true] at h
  simp_all [parseFields, parseProbes]

theorem probeRetire (probe : Nat) : Statement (.probeRetire probe) := by
  refine of_parse rfl (by decide) (fun h => ?_)
  simp only [Instr.wf] at h
  simp_all [parseFields, parseProbes]

theorem expect (arm port probe : Nat) : Statement (.expect arm port probe) := by
  refine of_parse rfl (by decide) (fun h => ?_)
  simp only [Instr.wf, Bool.and_eq_true] at h
  simp_all [parseFields, parseProbes]

theorem portDisable (arm port : Nat) : Statement (.portDisable arm port) := by
  refine of_parse rfl (by decide) (fun h => ?_)
  simp only [Instr.wf, Bool.and_eq_true] at h
  simp_all [parseFields, parseProbes]

theorem portEnable (arm port : Nat) : Statement (.portEnable arm port) := by
  refine of_parse rfl (by decide) (fun h => ?_)
  simp only [Instr.wf, Bool.and_eq_true] at h
  simp_all [parseFields, parseProbes]

theorem armEnable (arm : Nat) : Statement (.armEnable arm) := by
  refine of_parse rfl (by decide) (fun h => ?_)
  simp only [Instr.wf] at h
  simp_all [parseFields, parseControl]

theorem armDisable (arm : Nat) : Statement (.armDisable arm) := by
  refine of_parse rfl (by decide) (fun h => ?_)
  simp only [Instr.wf] at h
  simp_all [parseFields, parseControl]

theorem busEnable : Statement (.busEnable) := by
  refine of_parse rfl (by decide) (fun h => ?_)
  simp only [Instr.wf] at h
  simp_all [parseFields, parseControl]

theorem busDisable : Statement (.busDisable) := by
  refine of_parse rfl (by decide) (fun h => ?_)
  simp only [Instr.wf] at h
  simp_all [parseFields, parseControl]

theorem busRecover : Statement (.busRecover) := by
  refine of_parse rfl (by decide) (fun h => ?_)
  simp only [Instr.wf] at h
  simp_all [parseFields, parseControl]

theorem channelClear (channel : Nat) : Statement (.channelClear channel) := by
  refine of_parse rfl (by decide) (fun h => ?_)
  simp only [Instr.wf] at h
  simp_all [parseFields, parseControl]

theorem stopRelease (arm : Nat) : Statement (.stopRelease arm) := by
  refine of_parse rfl (by decide) (fun h => ?_)
  simp only [Instr.wf] at h
  simp_all [parseFields, parseControl]

theorem changeAbortCell (arm : Nat) : Statement (.changeAbortCell arm) := by
  refine of_parse rfl (by decide) (fun h => ?_)
  simp only [Instr.wf] at h
  simp_all [parseFields, parseControl]

theorem changeResolve (arm seated drop pick : Nat) : Statement (.changeResolve arm seated drop pick) := by
  refine of_parse rfl (by decide) (fun h => ?_)
  simp only [Instr.wf, Bool.and_eq_true] at h
  simp_all [parseFields, parseControl]

theorem bayClear (arm : Nat) : Statement (.bayClear arm) := by
  refine of_parse rfl (by decide) (fun h => ?_)
  simp only [Instr.wf] at h
  simp_all [parseFields, parseControl]

theorem announceClear : Statement (.announceClear) := by
  refine of_parse rfl (by decide) (fun h => ?_)
  simp only [Instr.wf] at h
  simp_all [parseFields, parseControl]

theorem reset : Statement (.reset) := by
  refine of_parse rfl (by decide) (fun h => ?_)
  simp only [Instr.wf] at h
  simp_all [parseFields, parseControl]

theorem readProbe (probe : Nat) : Statement (.readProbe probe) := by
  refine of_parse rfl (by decide) (fun h => ?_)
  simp only [Instr.wf] at h
  simp_all [parseFields, parseReads]

theorem readPort (arm port : Nat) : Statement (.readPort arm port) := by
  refine of_parse rfl (by decide) (fun h => ?_)
  simp only [Instr.wf, Bool.and_eq_true] at h
  simp_all [parseFields, parseReads]

theorem readNode (node : Nat) : Statement (.readNode node) := by
  refine of_parse rfl (by decide) (fun h => ?_)
  simp only [Instr.wf] at h
  simp_all [parseFields, parseReads]

theorem readAnnounce : Statement (.readAnnounce) := by
  refine of_parse rfl (by decide) (fun h => ?_)
  simp only [Instr.wf] at h
  simp_all [parseFields, parseReads]

theorem readChannel (channel : Nat) : Statement (.readChannel channel) := by
  refine of_parse rfl (by decide) (fun h => ?_)
  simp only [Instr.wf] at h
  simp_all [parseFields, parseReads]

theorem readGroup (group : Nat) : Statement (.readGroup group) := by
  refine of_parse rfl (by decide) (fun h => ?_)
  simp only [Instr.wf] at h
  simp_all [parseFields, parseReads]

theorem readBays : Statement (.readBays) := by
  refine of_parse rfl (by decide) (fun h => ?_)
  simp only [Instr.wf] at h
  simp_all [parseFields, parseReads]

theorem readArm (arm : Nat) : Statement (.readArm arm) := by
  refine of_parse rfl (by decide) (fun h => ?_)
  simp only [Instr.wf] at h
  simp_all [parseFields, parseReads]

theorem readMap (arm axis first count : Nat) : Statement (.readMap arm axis first count) := by
  refine of_parse rfl (by decide) (fun h => ?_)
  simp only [Instr.wf, Bool.and_eq_true] at h
  simp_all [parseFields, parseReads]

theorem readNotices (clear : Nat) : Statement (.readNotices clear) := by
  refine of_parse rfl (by decide) (fun h => ?_)
  simp only [Instr.wf] at h
  simp_all [parseFields, parseReads]

theorem readId : Statement (.readId) := by
  refine of_parse rfl (by decide) (fun h => ?_)
  simp only [Instr.wf] at h
  simp_all [parseFields, parseReads]

theorem readFrame (words : Nat) : Statement (.readFrame words) := of_none rfl

theorem cellFrameError (reason : FrameReason) (code words : Nat) : Statement (.cellFrameError reason code words) := of_none rfl

theorem powerOn : Statement (.powerOn) := of_none rfl

theorem resetInputAssert : Statement (.resetInputAssert) := of_none rfl

theorem resetInputRelease : Statement (.resetInputRelease) := of_none rfl

theorem attentionHoldExpiry : Statement (.attentionHoldExpiry) := of_none rfl

theorem hello (link : ArmId) (letter : Nat) (tags : Tags) (code : Nat) : Statement (.hello link letter tags code) := of_none rfl

theorem ready (link : ArmId) : Statement (.ready link) := of_none rfl

theorem armFrameDiscarded (link : ArmId) : Statement (.armFrameDiscarded link) := of_none rfl

theorem listenTimerExpiry (link : ArmId) : Statement (.listenTimerExpiry link) := of_none rfl

theorem agreeTimerExpiry (link : ArmId) : Statement (.agreeTimerExpiry link) := of_none rfl

theorem silenceTimerExpiry (link : ArmId) : Statement (.silenceTimerExpiry link) := of_none rfl

theorem requestArrival (link : ArmId) (request : Request) : Statement (.requestArrival link request) := of_none rfl

theorem frameSent (link : ArmId) : Statement (.frameSent link) := of_none rfl

theorem correct (link : ArmId) (tag kind tip : Nat) (u : Point) : Statement (.correct link tag kind tip u) := of_none rfl

theorem check (link : ArmId) (tag : Nat) (target : Point) : Statement (.check link tag target) := of_none rfl

theorem reserve (link : ArmId) (tag first last wait : Nat) : Statement (.reserve link tag first last wait) := of_none rfl

theorem release (link : ArmId) (tag first last : Nat) : Statement (.release link tag first last) := of_none rfl

theorem changeBegin (link : ArmId) (tag target : Nat) : Statement (.changeBegin link tag target) := of_none rfl

theorem changeAbortArm (link : ArmId) (tag : Nat) : Statement (.changeAbortArm link tag) := of_none rfl

theorem reportStaged (link : ArmId) (tag : Nat) : Statement (.reportStaged link tag) := of_none rfl

theorem reportId (link : ArmId) (tag code : Nat) : Statement (.reportId link tag code) := of_none rfl

theorem reportHit (link : ArmId) (tag : Nat) : Statement (.reportHit link tag) := of_none rfl

theorem heartbeat (link : ArmId) (tag : Nat) : Statement (.heartbeat link tag) := of_none rfl

theorem waitTimerExpiry (link : ArmId) : Statement (.waitTimerExpiry link) := of_none rfl

theorem stepTimerExpiry (link : ArmId) : Statement (.stepTimerExpiry link) := of_none rfl

theorem engageTimerExpiry (link : ArmId) : Statement (.engageTimerExpiry link) := of_none rfl

theorem portLineChange (link : ArmId) (port : Nat) (line : PortLine) (level : Bool) :
    Statement (.portLineChange link port line level) := of_none rfl

theorem filterExpiry (link : ArmId) (port : Nat) (line : PortLine) : Statement (.filterExpiry link port line) := of_none rfl

theorem maskEnd (link : ArmId) : Statement (.maskEnd link) := of_none rfl

theorem pollPeriodExpiry : Statement (.pollPeriodExpiry) := of_none rfl

theorem pollSent : Statement (.pollSent) := of_none rfl

theorem reply (frame : BusFrame) : Statement (.reply frame) := of_none rfl

theorem replyTimeout : Statement (.replyTimeout) := of_none rfl

theorem slotEnd : Statement (.slotEnd) := of_none rfl

theorem announce (checkOk : Bool) (address channels kind : Nat) : Statement (.announce checkOk address channels kind) := of_none rfl

theorem lineStuck : Statement (.lineStuck) := of_none rfl

theorem busLineLevelChange (driven : Bool) : Statement (.busLineLevelChange driven) := of_none rfl

theorem releasedTimerExpiry : Statement (.releasedTimerExpiry) := of_none rfl

theorem staleTimerExpiry (channel : Nat) : Statement (.staleTimerExpiry channel) := of_none rfl

theorem holdTimerExpiry (group : Nat) : Statement (.holdTimerExpiry group) := of_none rfl

end Sys2Proof.Laws.WireForm
end

