-- ==== Sys2Proof/Laws/Service.lean ====
section
/-! SUPPORT. What the service of a request can do to the arm ports (R188, R189): it takes no request and no frame out, and keeps the
ports' modes and rooms; and so the heads that may be served are served until the queue is empty or more than 12 frames wait. -/

namespace Sys2Proof.Machine

/-- The port of `m'` is that of `m` with frames handed over. -/
structure Arm.Answers (m m' : Arm) : Prop where
  mode : m'.port.mode = m.port.mode
  phase : m'.port.phase = m.port.phase
  queue : m'.port.queue = m.port.queue
  room : m.port.transmit.length ≤ 16 → m.port.dropped ≤ 255 → m'.port.transmit.length ≤ 16 ∧ m'.port.dropped ≤ 255
  grows : m.port.transmit.length ≤ m'.port.transmit.length

theorem Arm.Answers.refl (m : Arm) : m.Answers m := ⟨rfl, rfl, rfl, fun h g => ⟨h, g⟩, Nat.le_refl _⟩

theorem Arm.Answers.trans {m n k : Arm} (h : m.Answers n) (g : n.Answers k) : m.Answers k :=
  ⟨g.mode.trans h.mode, g.phase.trans h.phase, g.queue.trans h.queue, fun h1 h2 => g.room (h.room h1 h2).1 (h.room h1 h2).2,
    Nat.le_trans h.grows g.grows⟩

theorem Arm.Follows.answers {m m' : Arm} (h : m.Follows m') : m.Answers m' := ⟨h.mode, h.phase, h.queue, h.room, h.grows⟩

/-- Both ports have answered. -/
def Cell.Answers (c c' : Cell) : Prop := ∀ a, (c.arm a).Answers (c'.arm a)

theorem Cell.Answers.refl (c : Cell) : c.Answers c := fun _ => .refl _

theorem Cell.Answers.trans {c d e : Cell} (h : c.Answers d) (g : d.Answers e) : c.Answers e := fun a => (h a).trans (g a)

theorem Cell.Follows.answers {c c' : Cell} (h : c.Follows c') : c.Answers c' := fun a => (h.arm a).answers

/-- A change of one arm that leaves its port alone. -/
theorem Cell.answers_modArm (c : Cell) (a : ArmId) (f : Arm → Arm) (h : ∀ m, (f m).port = m.port) : c.Answers (c.modArm a f) := by
  intro b
  rcases a.eq_or_other b with rfl | rfl
  · simp only [Cell.arm_modArm_same]; constructor <;> simp [h]; exact fun h1 h2 => ⟨h1, h2⟩
  · simp [Arm.Answers.refl]

theorem Cell.answers_handOver (c : Cell) (a : ArmId) (f : TxFrame) : c.Answers (c.handOver a f) := (c.follows_handOver a f).answers

theorem Cell.answers_onBays (c : Cell) (f : Bays → Bays) : c.Answers (c.onBays f) := fun a => by cases a <;> exact .refl _

/-! ### The services -/

theorem Cell.answers_countTouch (c : Cell) (p t : Nat) : c.Answers (c.countTouch p t) := by
  simp only [Cell.countTouch]
  split
  · exact .refl c
  · split
    · exact ((c.follows_modProbe p _).trans (Cell.follows_addNotice _ _)).answers
    · exact (c.follows_modProbe p _).answers

theorem Cell.answers_handSample (c : Cell) (a : ArmId) (u : Point) : c.Answers (c.handSample a u) := by
  refine Cell.Answers.trans (c.answers_modArm a (fun m => m.takeSample u) ?_) (Cell.Follows.answers (Cell.Follows.trans ?_
    (follows_bayTest _ follows_setStop _ a u)))
  · intro m; simp only [Arm.takeSample]; split <;> (try split) <;> rfl
  · simp only [Cell.rackTest]; split
    · exact .refl _
    · exact follows_setStop a _ _

theorem answers_serveCorrect (a : ArmId) (tag kind tip : Nat) (u : Point) (d : Device) :
    d.cell.Answers (serveCorrect a tag kind tip u d).cell := by
  simp only [serveCorrect]
  split
  · exact d.cell.answers_handOver a _
  · refine (d.cell.answers_handOver a (d.correctResponse a tag tip u)).trans (Cell.Answers.trans ?_ (Cell.answers_handSample _ a u))
    simp only [Cell.countIfTouch]
    split
    · exact .refl _
    · split
      · exact Cell.answers_countTouch _ _ tip
      · exact .refl _

theorem answers_serveReserve (a : ArmId) (tag first last wait : Nat) (c : Cell) : c.Answers (serveReserve a tag first last wait c) := by
  simp only [serveReserve]
  split
  · exact c.answers_handOver a _
  · split
    · exact (c.answers_onBays _).trans (Cell.answers_handOver _ a _)
    · split
      · exact c.answers_handOver a _
      · split
        · exact c.answers_handOver a _
        · exact c.answers_modArm a _ (fun _ => rfl)

theorem Cell.answers_testWait (c : Cell) (b : ArmId) : c.Answers (c.testWait b) := by
  simp only [Cell.testWait]
  split
  · exact .refl c
  · split
    · refine Cell.Answers.trans ?_ (Cell.follows_message _ _ _).answers
      exact (c.answers_onBays _).trans (Cell.answers_modArm _ b (fun m => { m with wait := none }) (fun _ => rfl))
    · exact .refl c

theorem Cell.answers_freeBays (c : Cell) (a : ArmId) (first last : Nat) : c.Answers (c.freeBays a first last) := by
  simp only [Cell.freeBays]
  split
  · exact c.answers_onBays _
  · exact (c.answers_onBays _).trans (Cell.answers_testWait _ _)

theorem answers_serveRelease (a : ArmId) (tag first last : Nat) (c : Cell) : c.Answers (serveRelease a tag first last c) := by
  simp only [serveRelease]
  split
  · exact c.answers_handOver a _
  · split
    · exact c.answers_handOver a _
    · split
      · exact c.answers_handOver a _
      · exact Cell.Answers.trans (d := c.respond a .release tag .ok _ 0) (c.answers_handOver a _) (Cell.answers_freeBays _ a _ _)

theorem Cell.answers_enterStep (c : Cell) (a : ArmId) (step : Step) (p : Plan) : c.Answers (c.enterStep a step p) := by
  simp only [Cell.enterStep]
  refine Cell.Answers.trans ?_ (Cell.follows_message _ a _).answers
  refine Cell.Answers.trans ?_ (Cell.follows_entryAction _ a _).answers
  exact Cell.Answers.trans (d := c.setSeqState a (.cycle step { p with entry := c.ms })) (c.answers_modArm a _ (fun _ => rfl))
    (Cell.answers_modArm _ a _ (fun _ => rfl))

theorem answers_serveChangeBegin (a : ArmId) (tag t : Nat) (c : Cell) : c.Answers (serveChangeBegin a tag t c) := by
  simp only [serveChangeBegin]
  split
  · exact c.answers_handOver a _
  · exact Cell.Answers.trans (d := c.respond a .changeBegin tag .accepted _ _) (c.answers_handOver a _)
      (Cell.answers_enterStep _ a _ _)

theorem answers_serveReportHit (a : ArmId) (tag : Nat) (c : Cell) : c.Answers (serveReportHit a tag c) := by
  simp only [serveReportHit]
  split
  · exact c.answers_handOver a _
  · split
    · exact c.answers_handOver a _
    · exact c.answers_handOver a _
    · exact (((c.follows_modProbe _ _).trans (Cell.follows_addNotice _ _)).trans (Cell.follows_handOver _ a _)).answers

/-- The service of a request takes nothing out of a queue or a transmit list. -/
theorem answers_serveRequest (a : ArmId) (r : Request) (d : Device) : d.cell.Answers (serveRequest a r d).cell := by
  cases r with
  | correct tag kind tip u => exact answers_serveCorrect a tag kind tip u d
  | check tag t => exact d.cell.answers_handOver a _
  | reserve tag first last wait => exact answers_serveReserve a tag first last wait d.cell
  | release tag first last => exact answers_serveRelease a tag first last d.cell
  | changeBegin tag t => exact answers_serveChangeBegin a tag t d.cell
  | changeAbort tag => exact (follows_serveChangeAbort d.cell a tag).answers
  | reportStaged tag => exact (follows_serveReportStaged d.cell a tag).answers
  | reportId tag code => exact (follows_serveReportId d.cell a tag code).answers
  | reportHit tag => exact answers_serveReportHit a tag d.cell
  | heartbeat tag => exact d.cell.answers_handOver a _

/-! ### Serving the waiting heads (R188) -/

/-- Where no head may be served nothing happens. -/
theorem Device.serveWaiting_none (d : Device) (a : ArmId) (n : Nat) (h : (d.cell.arm a).servesPromptly) :
    Device.serveWaiting a n d = d := by
  have key : d.serveHead a = d := by
    simp only [Device.serveHead]
    rcases h with h | h
    · rw [h]
    · split
      · rfl
      · rw [if_neg]; simp only [ArmPort.mayServe, Config.serviceLimit, decide_eq_true_eq]; omega
  induction n with
  | zero => rfl
  | succ n ih => rw [Device.serveWaiting, key, ih]

/-- One service takes the head of the arm's queue and nothing else out. -/
theorem Device.serveHead_answers (d : Device) (a : ArmId) (h : (d.cell.arm a).port.mayServe = true) :
    (d.cell.popRequest a).Answers (d.serveHead a).cell := by
  simp only [Device.serveHead, h, if_true]
  split
  · rename_i hq
    intro b
    rcases a.eq_or_other b with rfl | rfl
    · simp only [Cell.popRequest, Cell.modPort, Cell.arm_modArm_same]
      constructor <;> simp [hq]; exact fun h1 h2 => ⟨h1, h2⟩
    · simp [Cell.popRequest, Cell.modPort, Arm.Answers.refl]
  · exact answers_serveRequest a _ (d.onCell (fun c => c.popRequest a))

/-- The waiting heads are served until the queue is empty or more than 12 frames wait. -/
theorem Device.serveWaiting_prompt (d : Device) (a : ArmId) (n : Nat) (h : (d.cell.arm a).port.queue.length ≤ n) :
    ((Device.serveWaiting a n d).cell.arm a).servesPromptly := by
  induction n generalizing d with
  | zero => exact .inl (List.eq_nil_of_length_eq_zero (Nat.le_zero.1 h))
  | succ n ih =>
    by_cases hp : (d.cell.arm a).servesPromptly
    · rw [Device.serveWaiting_none d a _ hp]; exact hp
    · rw [Device.serveWaiting]
      refine ih _ ?_
      have hm : (d.cell.arm a).port.mayServe = true := by
        simp only [Arm.servesPromptly, not_or] at hp
        simp only [ArmPort.mayServe, Config.serviceLimit, decide_eq_true_eq]; omega
      rw [(d.serveHead_answers a hm a).queue]
      simp [Cell.popRequest, Cell.modPort]
      omega

/-- Whatever the service of the waiting heads does, the other arm's port has only answered. -/
theorem Device.serveWaiting_other (d : Device) (a : ArmId) (n : Nat) :
    (d.cell.arm a.other).Answers ((Device.serveWaiting a n d).cell.arm a.other) := by
  induction n generalizing d with
  | zero => exact .refl _
  | succ n ih =>
    rw [Device.serveWaiting]
    refine Arm.Answers.trans ?_ (ih _)
    by_cases hm : (d.cell.arm a).port.mayServe = true
    · simpa [Cell.popRequest, Cell.modPort] using d.serveHead_answers a hm a.other
    · have : d.serveHead a = d := by simp only [Device.serveHead, hm]; split <;> rfl
      rw [this]; exact .refl _

end Sys2Proof.Machine
end

