-- ==== Sys2Proof/Laws/Temperature.lean ====
section
/-! SUPPORT. What an evaluation of the groups and the group-updated signal can do (R81, R85, R103): they change group records, the
tips of probes and the notice set, and nothing else; and they look at neither the sensor bus nor the
cell link. -/

namespace Sys2Proof.Machine

/-- `d'` is `d` with other group records, tips and notices: the links, the bus, the channels' part of every arm, the bays and the
workpiece stand. -/
structure Device.Evaluates (d d' : Device) : Prop where
  link : d'.link = d.link
  bus : d'.bus = d.bus
  channels : d'.temp.channels = d.temp.channels
  driftWindow : d'.temp.driftWindow = d.temp.driftWindow
  workpiece : d'.workpiece = d.workpiece
  arm : ∀ a, d'.cell.arm a = d.cell.arm a
  bays : d'.cell.bays = d.cell.bays
  ms : d'.cell.ms = d.cell.ms

theorem Device.Evaluates.refl (d : Device) : d.Evaluates d := ⟨rfl, rfl, rfl, rfl, rfl, fun _ => rfl, rfl, rfl⟩

theorem Device.Evaluates.trans {d e f : Device} (h : d.Evaluates e) (g : e.Evaluates f) : d.Evaluates f :=
  ⟨g.link.trans h.link, g.bus.trans h.bus, g.channels.trans h.channels, g.driftWindow.trans h.driftWindow,
    g.workpiece.trans h.workpiece, fun a => (g.arm a).trans (h.arm a), g.bays.trans h.bays, g.ms.trans h.ms⟩

theorem Device.evaluates_addNotice (d : Device) (n : Notice) : d.Evaluates (d.addNotice n) :=
  ⟨rfl, rfl, rfl, rfl, rfl, fun a => by simp, rfl, rfl⟩

theorem Device.evaluates_foldl_addNotice (l : List Notice) (d : Device) : d.Evaluates (l.foldl Device.addNotice d) := by
  induction l generalizing d with
  | nil => exact .refl d
  | cons n ns ih => exact (d.evaluates_addNotice n).trans (ih _)

theorem Device.evaluates_addNotices (d : Device) (l : List Notice) : d.Evaluates (d.addNotices l) := by
  match l with
  | [] => exact .refl d
  | [n] => exact d.evaluates_addNotice n
  | x :: y :: rest =>
    have h := Device.evaluates_foldl_addNotice (freeOrder d.freeCount (x :: y :: rest)) d
    exact ⟨h.link, h.bus, h.channels, h.driftWindow, h.workpiece, h.arm, h.bays, h.ms⟩

/-- Adding several causes adds each once, in a free order, to the cell, and changes nothing else of the records (R197). -/
theorem Device.addNotices_cell (d : Device) (l : List Notice) :
    ∃ m : List Notice, m.Perm l ∧ (d.addNotices l).cell = m.foldl Cell.addNotice d.cell ∧ (d.addNotices l).temp = d.temp := by
  have key : ∀ (m : List Notice) (e : Device),
      (m.foldl Device.addNotice e).cell = m.foldl Cell.addNotice e.cell ∧ (m.foldl Device.addNotice e).temp = e.temp := by
    intro m
    induction m with
    | nil => intro e; exact ⟨rfl, rfl⟩
    | cons n ns ih => intro e; exact ih (e.addNotice n)
  match l with
  | [] => exact ⟨[], .refl _, rfl, rfl⟩
  | [n] => exact ⟨[n], .refl _, rfl, rfl⟩
  | x :: y :: rest => exact ⟨freeOrder d.freeCount (x :: y :: rest), freeOrder_perm _ _, (key _ d).1, (key _ d).2⟩

theorem Device.evaluates_drift (d : Device) (a : ArmId) (g : Group) : d.Evaluates (d.evaluateDrift a g) :=
  ⟨rfl, rfl, rfl, rfl, rfl, fun b => by cases b <;> rfl, rfl, rfl⟩

theorem Device.evaluates_signalArm (d : Device) (gs : List Nat) (a : ArmId) : d.Evaluates (d.signalArm gs a) := by
  simp only [Device.signalArm]; split
  · exact d.evaluates_drift a _
  · exact .refl d

/-- The group-updated signal (R85, R103). -/
theorem Device.evaluates_signal (d : Device) (gs : List Nat) : d.Evaluates (d.signal gs) :=
  ((d.evaluates_signalArm gs .armA).trans (Device.evaluates_signalArm _ gs .armB)).trans (Device.evaluates_addNotices _ _)

/-- The evaluation of the groups with its signal (R81, R85). -/
theorem Device.evaluates_evaluate (d : Device) : d.Evaluates d.evaluate := by
  have h : d.Evaluates
      { d with temp := { d.temp with groups := d.temp.groups.mapNumbered (fun g (x : Group) => x.evaluated (d.members g)) } } :=
    ⟨rfl, rfl, rfl, rfl, rfl, fun _ => rfl, rfl, rfl⟩
  have h2 : d.Evaluates d.evaluateGroups := by
    rw [Device.evaluateGroups]; exact h.trans (Device.evaluates_addNotices _ _)
  rw [Device.evaluate]; exact h2.trans (Device.evaluates_signal _ _)

/-! ### No evaluation looks at the sensor bus -/

section Bus
variable (d : Device) (f : Bus → Bus)

theorem Device.addNotices_onBus (l : List Notice) : (d.onBus f).addNotices l = (d.addNotices l).onBus f := by
  have key : ∀ (m : List Notice) (e : Device), m.foldl Device.addNotice (e.onBus f) = (m.foldl Device.addNotice e).onBus f := by
    intro m
    induction m with
    | nil => intro e; rfl
    | cons n ns ih => intro e; exact ih (e.addNotice n)
  match l with
  | [] => rfl
  | [n] => rfl
  | x :: y :: rest => exact congrArg Device.countFree (key (freeOrder d.freeCount (x :: y :: rest)) d)

theorem Device.evaluateDrift_onBus (a : ArmId) (g : Group) : (d.onBus f).evaluateDrift a g = (d.evaluateDrift a g).onBus f :=
  rfl

theorem Device.signalArm_onBus (gs : List Nat) (a : ArmId) : (d.onBus f).signalArm gs a = (d.signalArm gs a).onBus f := by
  simp only [Device.signalArm]
  split
  · rename_i h
    rw [if_pos (show gs.contains (d.envGroup a) = true from h)]; exact d.evaluateDrift_onBus f a _
  · rename_i h
    rw [if_neg (show ¬gs.contains (d.envGroup a) = true from h)]

theorem Device.signal_onBus (gs : List Nat) : (d.onBus f).signal gs = (d.signal gs).onBus f := by
  rw [Device.signal, Device.signalArm_onBus, Device.signalArm_onBus, Device.addNotices_onBus]; rfl

/-- An evaluation and a change of the bus may be taken in either order. -/
theorem Device.evaluate_onBus : (d.onBus f).evaluate = d.evaluate.onBus f := by
  rw [Device.evaluate, Device.evaluate, ← Device.signal_onBus]
  exact congrArg (Device.signal · groupNumbers)
    (Device.addNotices_onBus
      { d with temp := { d.temp with groups := d.temp.groups.mapNumbered (fun g (x : Group) => x.evaluated (d.members g)) } } f
      d.lostNotices)

end Bus

/-! ### No evaluation looks at the cell link -/

section Link
variable (d : Device) (l : CellLink)

theorem Device.addNotices_link (ns : List Notice) :
    ({ d with link := l } : Device).addNotices ns = { d.addNotices ns with link := l } := by
  have key : ∀ (m : List Notice) (e : Device),
      m.foldl Device.addNotice { e with link := l } = { m.foldl Device.addNotice e with link := l } := by
    intro m
    induction m with
    | nil => intro e; rfl
    | cons n ns ih => intro e; exact ih (e.addNotice n)
  match ns with
  | [] => rfl
  | [n] => rfl
  | x :: y :: rest => exact congrArg Device.countFree (key (freeOrder d.freeCount (x :: y :: rest)) d)

theorem Device.evaluateDrift_link (a : ArmId) (g : Group) :
    ({ d with link := l } : Device).evaluateDrift a g = { d.evaluateDrift a g with link := l } := rfl

theorem Device.signalArm_link (gs : List Nat) (a : ArmId) :
    ({ d with link := l } : Device).signalArm gs a = { d.signalArm gs a with link := l } := by
  simp only [Device.signalArm]
  split
  · rename_i h
    rw [if_pos (show gs.contains (d.envGroup a) = true from h)]; exact d.evaluateDrift_link l a _
  · rename_i h
    rw [if_neg (show ¬gs.contains (d.envGroup a) = true from h)]

theorem Device.signal_link (gs : List Nat) : ({ d with link := l } : Device).signal gs = { d.signal gs with link := l } := by
  have h : (({ d with link := l } : Device).signalArm gs .armA).signalArm gs .armB =
      { (d.signalArm gs .armA).signalArm gs .armB with link := l } :=
    (congrArg (fun e : Device => e.signalArm gs .armB) (d.signalArm_link l gs .armA)).trans
      (Device.signalArm_link (d.signalArm gs .armA) l gs .armB)
  rw [Device.signal, h]
  exact Device.addNotices_link ((d.signalArm gs .armA).signalArm gs .armB) l
    (d.signalNotices gs .armA ++ d.signalNotices gs .armB)

/-- An evaluation and a change of the cell link may be taken in either order. -/
theorem Device.evaluate_link : ({ d with link := l } : Device).evaluate = { d.evaluate with link := l } := by
  rw [Device.evaluate, Device.evaluate, ← Device.signal_link]
  exact congrArg (Device.signal · groupNumbers)
    (Device.addNotices_link
      { d with temp := { d.temp with groups := d.temp.groups.mapNumbered (fun g (x : Group) => x.evaluated (d.members g)) } } l
      d.lostNotices)

end Link

/-! ### Deliveries -/

theorem Device.bus_deliverTo (d : Device) (k : Nat) (v : Int) : (d.deliverTo k v).bus = d.bus := by
  simp only [Device.deliverTo]; split <;> first | rfl | (split <;> first | rfl | (split <;> rfl))

/-- A delivery changes channels and notices alone. -/
theorem Device.arm_deliverTo (d : Device) (k : Nat) (v : Int) (a : ArmId) : (d.deliverTo k v).cell.arm a = d.cell.arm a := by
  simp only [Device.deliverTo]; split <;> first | rfl | (split <;> first | rfl | (split <;> rfl))

theorem Device.bus_deliverAll (d : Device) (node : Nat) (entries : List Int) : (d.deliverAll node entries).bus = d.bus := by
  have key : ∀ (l : List (Int × Nat)) (e : Device), (l.foldl (fun d x => d.deliver node (x.2 + 1) x.1) e).bus = e.bus := by
    intro l
    induction l with
    | nil => intro e; rfl
    | cons x xs ih =>
      intro e
      rw [List.foldl_cons, ih]
      simp only [Device.deliver]; split
      · rfl
      · exact e.bus_deliverTo _ _
  exact key _ d

theorem Device.arm_deliverAll (d : Device) (node : Nat) (entries : List Int) (a : ArmId) :
    (d.deliverAll node entries).cell.arm a = d.cell.arm a := by
  have key : ∀ (l : List (Int × Nat)) (e : Device),
      (l.foldl (fun d x => d.deliver node (x.2 + 1) x.1) e).cell.arm a = e.cell.arm a := by
    intro l
    induction l with
    | nil => intro e; rfl
    | cons x xs ih =>
      intro e
      rw [List.foldl_cons, ih]
      simp only [Device.deliver]; split
      · rfl
      · exact e.arm_deliverTo _ _ a
  exact key _ d

end Sys2Proof.Machine
end

