-- ==== Sys2Proof/Laws/Tick.lean ====
section
/-! SUPPORT. What one millisecond does to the timers by name (R1, R196, log entry 2): every running timer loses 1, and each timer that
has run out is among those that expire. -/

namespace Sys2Proof.Machine

theorem Timer.elapse_eq (t : Timer) : t.elapse = t.map (fun n => n - 1) := by cases t <;> rfl

theorem Timer.isDue_iff (t : Timer) : t.isDue = true ↔ t = some 0 := by simp [Timer.isDue]

@[simp] theorem Device.arm_elapse (d : Device) (a : ArmId) : d.elapse.cell.arm a = (d.cell.arm a).elapse := by cases a <;> rfl

theorem Device.channel_elapse (d : Device) (k : Nat) :
    d.elapse.channel k = { d.channel k with staleTimer := Timer.elapse (d.channel k).staleTimer } :=
  Table.get_map (f := fun (c : Channel) => ({ c with staleTimer := Timer.elapse c.staleTimer } : Channel)) d.temp.channels k
    Channel.reset

theorem Device.group_elapse (d : Device) (g : Nat) :
    d.elapse.group g = { d.group g with holdTimer := Timer.elapse (d.group g).holdTimer } :=
  Table.get_map (f := fun (x : Group) => ({ x with holdTimer := Timer.elapse x.holdTimer } : Group)) d.temp.groups g Group.reset

/-- Every running timer loses one millisecond, whatever its name. -/
theorem Device.timer_elapse (d : Device) (t : TimerId) : d.elapse.timer t = (d.timer t).map (fun n => n - 1) := by
  cases t with
  | stale k => simp [Device.timer, d.channel_elapse, Timer.elapse_eq]
  | hold g => simp [Device.timer, d.group_elapse, Timer.elapse_eq]
  | wait a =>
    simp only [Device.timer, d.arm_elapse]
    cases h : (d.cell.arm a).wait <;> simp [Arm.elapse, WaitSlot.elapse, Timer.elapse_eq, h]
  | filter a k line =>
    simp only [Device.timer, Cell.port?, d.arm_elapse, Arm.elapse, Rack.elapse, nth_map]
    cases nth (d.cell.arm a).rack.ports k with
    | none => rfl
    | some p => cases line <;> simp [Port.filter, Port.elapse, Timer.elapse_eq]
  | attention | pollPeriod | released | reply | slot | stuck => exact Timer.elapse_eq _
  | _ => simp only [Device.timer, d.arm_elapse]; exact Timer.elapse_eq _

theorem mem_linesInOrder (n k : Nat) (line : PortLine) : (k, line) ∈ linesInOrder n ↔ 1 ≤ k ∧ k ≤ n := by
  simp only [linesInOrder, List.mem_flatMap, List.mem_range, List.mem_cons, Prod.mk.injEq, List.not_mem_nil, or_false]
  constructor
  · rintro ⟨i, hi, ⟨rfl, _⟩ | ⟨rfl, _⟩⟩ <;> omega
  · rintro ⟨h1, h2⟩; exact ⟨k - 1, by omega, by cases line <;> simp <;> omega⟩

/-- A timer that runs is one of the part's timers. -/
theorem Device.mem_timers (d : Device) (t : TimerId) (h : d.timer t ≠ none) : t ∈ d.timers := by
  have hport : ∀ a k line, d.timer (.filter a k line) ≠ none → (k, line) ∈ linesInOrder (d.cell.arm a).rack.ports.length := by
    intro a k line h
    rw [mem_linesInOrder]
    cases k with
    | zero => exact absurd rfl h
    | succ i =>
      refine ⟨by omega, ?_⟩
      rcases Nat.lt_or_ge i (d.cell.arm a).rack.ports.length with h' | h'
      · omega
      · exact absurd (by simp [Device.timer, Cell.port?, nth, List.getElem?_eq_none h']) h
  have h32 : ∀ k, d.timer (.stale k) ≠ none → 1 ≤ k ∧ k ≤ 32 := fun k h => by
    refine Decidable.byContradiction (fun h' => h ?_)
    simp [Device.timer, Device.channel, Table.get_outside _ k _ (by omega : k = 0 ∨ 32 < k), Channel.reset]
  have h12 : ∀ k, d.timer (.hold k) ≠ none → 1 ≤ k ∧ k ≤ 12 := fun k h => by
    refine Decidable.byContradiction (fun h' => h ?_)
    simp [Device.timer, Device.group, Table.get_outside _ k _ (by omega : k = 0 ∨ 12 < k), Group.reset]
  simp only [Device.timers, armTimers, List.mem_append, List.mem_cons, List.not_mem_nil, or_false, List.mem_map, List.mem_range]
  cases t with
  | stale k => have := h32 k h; exact .inl (.inl (.inl (.inr ⟨k - 1, by omega, by congr 1; omega⟩)))
  | hold k => have := h12 k h; exact .inl (.inl (.inr ⟨k - 1, by omega, by congr 1; omega⟩))
  | filter a k line =>
    cases a
    · exact .inl (.inr (.inr ⟨_, hport _ k line h, rfl⟩))
    · exact .inr (.inr ⟨_, hport _ k line h, rfl⟩)
  | attention | pollPeriod | released | reply | slot | stuck => simp
  | phase a | silence a | wait a | step a | engage a | mask a => cases a <;> simp

/-- The timers that run out at the next millisecond, in the order in which the tick finds them. -/
def Device.dueTimers (d : Device) : List TimerId := d.elapse.timers.filter (fun t => Timer.isDue (d.elapse.timer t))

theorem Device.mem_dueTimers (d : Device) (t : TimerId) : t ∈ d.dueTimers ↔ d.elapse.timer t = some 0 := by
  simp only [Device.dueTimers, List.mem_filter, Timer.isDue_iff]
  exact ⟨fun h => h.2, fun h => ⟨Device.mem_timers _ _ (by simp [h]), h⟩⟩

/-- A tick is the passing of one millisecond and then, in a free order, the expiry of each timer that has run out. -/
theorem Device.tick_eq (d : Device) :
    d.tick = (freeOrder d.freeCount d.dueTimers).foldl Device.fire (if d.dueTimers.length ≤ 1 then d.elapse else d.elapse.countFree) := by
  show (match d.dueTimers with
    | [] => d.elapse
    | [t] => d.elapse.fire t
    | l => ((freeOrder d.elapse.freeCount l).foldl Device.fire d.elapse.countFree)) = _
  match d.dueTimers with
  | [] => rfl
  | [t] => rfl
  | x :: y :: rest => rw [if_neg (by simp)]; rfl

end Sys2Proof.Machine
end

