-- ==== Sys2Proof/Tests/Slice0.lean ====
section
/-! SUPPORT. Tests of the model: the checks of WellFormed on ill-formed commands, worked values of the spec, single steps on small
states, and for every statement that has hypotheses a state and operands that meet them (test_premises_…), clause by clause. -/

namespace Sys2Proof.Tests

open Sys2Proof.Machine

/-! ### Small states -/

/-- Arm A changed in a state. -/
def onA (s : State) (f : Arm → Arm) : State := s.withCell (s.dev.cell.modArm .armA f)

/-- Arm B changed in a state. -/
def onB (s : State) (f : Arm → Arm) : State := s.withCell (s.dev.cell.modArm .armB f)

/-- The state right after reset. -/
def s0 : State := State.reset

/-- The part held in reset. -/
def sHeld : State := { s0 with dev := s0.dev.assertReset }

/-- A state with a full or nearly full output queue. -/
def sQueue (n : Nat) : State := { s0 with dev := { s0.dev with link := { s0.dev.link with queue := List.replicate n 0 } } }

/-- Limits that leave room: every bound 100,000,000 either way, the staging box far off. -/
def roomy : ArmSettings where
  carriage := ⟨⟨-100000000, -100000000, -100000000⟩, ⟨100000000, 100000000, 100000000⟩⟩
  volume := ⟨⟨-100000000, -100000000, -100000000⟩, ⟨100000000, 100000000, 100000000⟩⟩
  unknownBox := ⟨⟨-10000, -10000, -10000⟩, ⟨10000, 10000, 10000⟩⟩
  staging := ⟨⟨-90000000, -90000000, -90000000⟩, ⟨-80000000, -80000000, -80000000⟩⟩
  scaleX := ⟨0, 10700⟩
  scaleY := ⟨0, 10700⟩
  scaleZ := ⟨0, 10700⟩
  bayOffset := 0
  safeDepth := 6000000
  margin := 100000
  silence := 200

/-- An arm that runs, with roomy limits, no probe seated and a last sample at the origin. -/
def running (m : Arm) : Arm :=
  { m with
    settings := roomy, configured := true, lastSample := some ⟨0, 0, 0⟩
    seq := { m.seq with seated := .noProbe }
    port := { m.port with mode := .run, silenceTimer := some 200 } }

/-- Arm A runs. -/
def sRun : State := onA s0 running

/-- Both arms run, and there are twelve bays of 2,000,000 from 10,000,000, as in the examples of chapter 8. -/
def sBays : State :=
  let s := onB sRun running
  s.withCell { s.dev.cell with bays := ⟨10000000, 2000000, List.replicate 12 none⟩ }

/-- A bay table with some holders, bay by bay from 0. -/
def withHolders (s : State) (l : List (Option ArmId)) : State :=
  s.withCell { s.dev.cell with bays := { s.dev.cell.bays with holders := l } }

/-- Probe 7: one tip 100,000 below the head, in service, homed on arm A. -/
def probe7 (l : Location) : Probe := ⟨.inService, 4410, .armA, l, 5, [⟨⟨0, 0, -100000⟩, 2000, .qualified, some 20000, 4⟩]⟩

/-- A state with probe `p` set. -/
def withProbe (s : State) (p : Nat) (r : Probe) : State := s.withCell (s.dev.cell.modProbe p (fun _ => r))

/-- A port of an empty cradle. -/
def port (st : PortState) (occupied : Bool) : Port := ⟨st, ⟨⟨1000000, 0, 0⟩, ⟨1100000, 100000, 100000⟩⟩, occupied, false, none, none⟩

/-- Arm A's rack with these ports. -/
def withPorts (s : State) (l : List Port) : State := onA s (fun m => { m with rack := { m.rack with ports := l } })

/-- Arm A's sequencer in a state, its step timer running. -/
def withSeq (s : State) (seated : Seated) (st : SeqState) : State :=
  onA s (fun m => { m with seq := { m.seq with seated := seated, state := st, stepTimer := some 60000 } })

/-- A plan that picks probe 7 from port 1. -/
def pick7 : Plan := ⟨none, some 7, none, some 1, 0⟩

/-- A plan that drops probe 7 into port 1. -/
def drop7 : Plan := ⟨some 7, none, some 1, none, 0⟩

/-- The bus record changed. -/
def onBus (s : State) (f : Bus → Bus) : State := s.withBus (f s.dev.bus)

/-- The bus in RUN, polling node 1 at address 9, two channels, the reply awaited. -/
def sPoll : State := onBus s0 (fun b => { b with
  state := .run, phase := .polling 9, lastPolled := 9, replyTimer := some 10, cycleNumber := 1
  nodes := b.nodes.set 1 ⟨9, 2, .online, 6, 0⟩ })

/-- The bus in the open slot of its first cycle. -/
def sSlot : State := onBus s0 (fun b => { b with state := .run, phase := .slot, slotTimer := some 20, cycleNumber := 1 })

/-- Channel 1 names channel 1 of node 1 in group 1. -/
def channel1 (st : ChannelState) : Channel :=
  { Channel.reset with node := 1, index := 1, group := 1, state := st, window := [20000], filtered := some 20000,
                       lastAccepted := some 20000, staleTimer := some 5000 }

/-- A state with channel 1 and group 1 set. -/
def withGroup (c : Channel) (g : Group) : State := { s0 with dev := (s0.dev.setChannel 1 c).setGroup 1 g }

/-- Arm A's X map set. -/
def withMap (s : State) (r : MapRecord) : State := onA s (fun m => { m with maps := m.maps.set .x r })

/-- A LOADING map of nine nodes from 0, node 0 written. -/
def loading9 : MapRecord := ⟨.loading, 5, 0, 1000, ⟨⟨1, 2, 3, 4⟩, true⟩ :: List.replicate 8 ⟨⟨0, 0, 0, 0⟩, false⟩⟩

/-- Every command is taken where the output queue is that of reset. -/
theorem test_takes_at_reset (n : Nat) : s0.takes n := ⟨rfl, by show 4 - n + 256 ≤ 1024; omega⟩

/-! ### WellFormed refuses each thing it checks -/

theorem test_wf_word : (Instr.armEnable 65536).wf = false := by decide
theorem test_wf_long : (Instr.groupSet 1 4294967296 0).wf = false := by decide
theorem test_wf_position : (Instr.bayConfig 1 2147483648 10000).wf = false := by decide
theorem test_wf_position_low : (Instr.bayConfig 1 (-2147483649) 10000).wf = false := by decide
theorem test_wf_signed : (Instr.mapNodes 1 1 0 [⟨32768, 0, 0, 0⟩]).wf = false := by decide
theorem test_wf_signed_low : (Instr.mapNodes 1 1 0 [⟨0, 0, 0, -32769⟩]).wf = false := by decide
theorem test_wf_byte : (Instr.heartbeat .armA 256).wf = false := by decide
theorem test_wf_point : (Instr.tipQualify 1 1 ⟨0, 0, 2147483648⟩ 0).wf = false := by decide
theorem test_wf_radius : (Instr.tipQualify 1 1 ⟨0, 0, 0⟩ 2147483648).wf = false := by decide
theorem test_wf_box :
    (Instr.portConfig 1 1 [⟨⟨0, 0, 0⟩, ⟨0, 2147483648, 0⟩⟩] PortParams.reset).wf = false := by decide
theorem test_wf_settings : (Instr.armConfig 1 { roomy with silence := 65536 }).wf = false := by decide
theorem test_wf_scale : (Instr.armConfig 1 { roomy with scaleY := ⟨0, 65536⟩ }).wf = false := by decide
theorem test_wf_params : (Instr.portConfig 1 0 [] { PortParams.reset with stepLimits := Table.fill Nat 8 65536 }).wf = false := by
  decide
theorem test_wf_groups : (Instr.tempSet 1000 ⟨0, 0, 0, 65536⟩ ⟨0, 0, 0, 0⟩).wf = false := by decide
theorem test_wf_tip : (Instr.probeDefine 1 1 1 1 0 [⟨⟨0, 0, 0⟩, 2147483648⟩]).wf = false := by decide
theorem test_wf_tags : (Instr.hello .armA 1 ⟨4294967296, 0, 0⟩ 0).wf = false := by decide
theorem test_wf_request : (Instr.requestArrival .armA (.reserve 0 0 0 65536)).wf = false := by decide
theorem test_wf_bus_frame : (Instr.reply ⟨true, 2, 256, 0, []⟩).wf = false := by decide
theorem test_wf_announce : (Instr.announce true 9 256 0).wf = false := by decide
theorem test_wf_read_frame : (Instr.readFrame 0).wf = false := by decide
theorem test_wf_frame_error : (Instr.cellFrameError .check 65536 1).wf = false := by decide
theorem test_wf_port : (Instr.portLineChange .armA 11 .head true).wf = false := by decide
theorem test_wf_channel : (Instr.staleTimerExpiry 33).wf = false := by decide
theorem test_wf_group : (Instr.holdTimerExpiry 0).wf = false := by decide
theorem test_wf_correct : (Instr.correct .armA 0 1 256 ⟨0, 0, 0⟩).wf = false := by decide

/-! ### Premises of the statements: step, reset and cell link -/

/-- At the next millisecond the attention hold and the poll period timer run out, and the others do not. -/
theorem test_premises_EveryCommandAndIdleStepCompletes :
    let s : State := { s0 with dev := { s0.dev with
      link := { s0.dev.link with hold := some 1 }, bus := { s0.dev.bus with periodTimer := some 1, slotTimer := some 2 } } }
    s.pending = [] ∧ s.dev.link.held = false ∧ s.dev.dueTimers = [.attention, .pollPeriod] := by decide

theorem test_premises_ResetCommandResetInputAndPowerOn :
    s0.takes 2 ∧ sHeld.dev.link.held = true ∧ s0.dev.link.held = false := ⟨test_takes_at_reset 2, rfl, rfl⟩

theorem test_premises_HeldPartDisregardsCommands : sHeld.dev.link.held = true ∧ sHeld.pending = [] := ⟨rfl, rfl⟩

theorem test_queue_length (n : Nat) : (sQueue n).dev.link.queue.length = n := List.length_replicate

/-- Three words fit, at the first and at the last length for which the command is BUSY; one word more and the mark is set. -/
theorem test_premises_BusyCommandChangesOnlyTheOutputQueue :
    commandWords .busEnable = some (1027, []) ∧ (sQueue 771).dev.link.held = false ∧
      1024 < (sQueue 771).dev.link.queue.length - (([] : List Word).length + 2) + 256 ∧
      1024 < (sQueue 1023).dev.link.queue.length - (([] : List Word).length + 2) + 256 ∧
      (sQueue 1023).dev.link.queue.length - (([] : List Word).length + 2) + 3 = 1024 ∧
      1024 < (sQueue 1024).dev.link.queue.length - (([] : List Word).length + 2) + 3 := by
  rw [test_queue_length, test_queue_length, test_queue_length]
  exact ⟨rfl, rfl, by decide⟩

theorem test_premises_FramesThatAreNoCommand : s0.dev.link.held = false := rfl

theorem test_premises_NoticeKeepsItsFirstArgument :
    s0.dev.cell.notices.get (Notice.groupLost 1).place none = none ∧
      (s0.dev.cell.addNotice (.groupLost 2)).notices.get (Notice.groupLost 1).place none = some ⟨.groupLost 2, 1⟩ ∧
      1 ≠ (Notice.groupLost 1).place := by decide

theorem test_premises_ReadNoticesAnswersAndClears : s0.takes 3 ∧ 2 ≤ 2 ∧ s0.dev.link.held = false :=
  ⟨test_takes_at_reset 3, Nat.le_refl 2, rfl⟩

/-- The first and the last number of each read, and the next beyond; the first index and the number of entries at their limits. -/
theorem test_premises_ReadCommandsAnswerWhatTheyRead :
    let racked := withPorts s0 [port .empty false]
    (∀ n, s0.takes n) ∧ racked.takes 4 ∧ (1 ≤ 40 ∧ 40 ≤ 40) ∧ ¬(1 ≤ 41 ∧ 41 ≤ 40) ∧ armOfCode 3 = none ∧ armOfCode 2 = some .armB ∧
      racked.dev.cell.port? .armA 1 = some (port .empty false) ∧ (racked.dev.cell.arm .armA).rack.ports.length < 2 ∧
      axisOfCode 4 = none ∧ axisOfCode 3 = some .z ∧
      (8 ≤ 8 ∧ 1 ≤ 63 ∧ 1 + 8 ≤ ((withMap s0 loading9).dev.cell.arm .armA).maps.x.nodes.length) ∧ ¬9 ≤ 8 ∧ ¬64 ≤ 63 ∧
      ¬2 + 8 ≤ ((withMap s0 loading9).dev.cell.arm .armA).maps.x.nodes.length :=
  ⟨test_takes_at_reset, ⟨rfl, by decide⟩, by decide⟩

/-- BUS_ENABLE: code 1027 and check word 64508; ARM_ENABLE of arm A: check word 64509. -/
theorem test_premises_CommandFramesReadBack :
    Instr.busEnable.wf = true ∧ commandFrame .busEnable = some [1027, 64508] ∧ (Instr.armEnable 1).wf = true ∧
      commandFrame (.armEnable 1) = some [1025, 1, 64509] := by decide

/-! ### Premises: maps -/

/-- The least and the largest number of nodes, and the largest reach that a map may have. -/
theorem test_premises_MapOpenSetsUpALoadingMap :
    s0.takes 11 ∧ armOfCode 1 = some .armA ∧ axisOfCode 1 = some .x ∧ s0.dev.cell.mode .armA = .off ∧ 2 ≤ 2 ∧ 64 ≤ 64 ∧
      (2147482647 : Int) + ((2 : Nat) - 1 : Int) * (min (max 0 1000) 2000000 : Int) ≤ 2147483647 :=
  ⟨test_takes_at_reset 11, by decide⟩

theorem test_premises_MapNodesWriteTheirEntries :
    (withMap s0 loading9).takes (6 + 4 * 8) ∧ armOfCode 1 = some .armA ∧ axisOfCode 1 = some .x ∧
      (withMap s0 loading9).dev.cell.mode .armA = .off ∧
      (((withMap s0 loading9).dev.cell.arm .armA).maps.get .x).state = .loading ∧
      (List.replicate 8 (⟨1, 1, 1, 1⟩ : MapNode)).length = 8 ∧
      1 + 8 ≤ (((withMap s0 loading9).dev.cell.arm .armA).maps.get .x).nodes.length := ⟨⟨rfl, by decide⟩, by decide⟩

theorem test_premises_MapCloseAndMapClear :
    let full := withMap s0 ⟨.loading, 5, 0, 1000, List.replicate 2 ⟨⟨0, 0, 0, 0⟩, true⟩⟩
    (full.takes 4 ∧ full.dev.cell.mode .armA = .off ∧ ((full.dev.cell.arm .armA).maps.get .x).state = .loading ∧
      ∀ e ∈ ((full.dev.cell.arm .armA).maps.get .x).nodes, e.written = true) ∧
    ((withMap s0 loading9).takes 4 ∧ loading9.state = .loading ∧ loading9.nodes[1]? = some ⟨⟨0, 0, 0, 0⟩, false⟩ ∧
      ∀ j x, j < 1 → loading9.nodes[j]? = some x → x.written = true) ∧
    ((s0.dev.cell.arm .armA).maps.get .x).state ≠ .loading :=
  ⟨⟨⟨rfl, by decide⟩, by decide⟩, ⟨⟨rfl, by decide⟩, rfl, rfl, fun j x h g => by
    cases j with
    | zero => cases g; rfl
    | succ n => omega⟩, by decide⟩

theorem test_premises_MapCommandsNeedTheArmOff :
    armOfCode 1 = some .armA ∧ axisOfCode 3 = some .z ∧ sRun.dev.cell.mode .armA ≠ .off ∧ sRun.takes 11 ∧
      sRun.takes (6 + 4 * 0) ∧ sRun.takes 4 :=
  ⟨rfl, rfl, by decide, ⟨rfl, by decide⟩, ⟨rfl, by decide⟩, ⟨rfl, by decide⟩⟩

theorem test_premises_StepKeepsLoadingMapsToOffArms :
    (withMap s0 loading9).bothArms Arm.loadsOnlyOff ∧ (step { withMap s0 loading9 with pending := [.frameSent .armA] } =
      .next (withMap s0 loading9)) := ⟨⟨fun _ => rfl, fun _ => rfl⟩, rfl⟩

/-! ### Premises: the correction -/

/-- A READY map of two nodes, at one below its origin, at its last node, and at both ends of its interval. -/
theorem test_premises_RoundingAndInterpolation :
    let m : MapRecord := ⟨.ready, 5, 0, 1000, [⟨⟨1, 2, 3, 4⟩, true⟩, ⟨⟨5, 6, 7, 8⟩, true⟩]⟩
    ((0 : Int) < 2 ∧ (0 : Int) ≤ 0 ∧ (0 : Int) ≤ 999 ∧ (999 : Int) < 1000) ∧ loading9.state ≠ .ready ∧ m.state = .ready ∧
      0 < m.spacing ∧ m.nodes[0]? = some ⟨⟨1, 2, 3, 4⟩, true⟩ ∧ (-1 : Int) < m.origin ∧
      m.nodes[m.nodes.length - 1]? = some ⟨⟨5, 6, 7, 8⟩, true⟩ ∧ m.origin + (m.nodes.length - 1 : Int) * m.spacing ≤ 1000 ∧
      m.nodes[0 + 1]? = some ⟨⟨5, 6, 7, 8⟩, true⟩ ∧ (0 : Int) = m.origin + (0 : Nat) * m.spacing + 0 ∧
      (999 : Int) = m.origin + (0 : Nat) * m.spacing + 999 := by decide

/-- Group 1 by its state. -/
def group1 (st : GroupState) : Group := ⟨st, if st = .empty then none else some 20000, 120000, 0, false, none, 1, 1⟩

theorem test_premises_GeometricAndAbbeTerms : ((s0.dev.cell.arm .armA).maps.get .x).state ≠ .ready := by decide

theorem test_premises_GroupStateChoosesTheTemperature :
    ((withGroup Channel.reset (group1 .valid)).dev.group 1).value = some 20000 ∧
      ((withGroup Channel.reset (group1 .valid)).dev.group 1).state = .valid ∧
      ((withGroup Channel.reset (group1 .held)).dev.group 1).state = .held ∧
      ((withGroup Channel.reset (group1 .lost)).dev.group 1).state = .lost ∧
      ((withGroup Channel.reset (group1 .lost)).dev.group 1).value = some 20000 ∧ (s0.dev.group 12).state = .empty := by decide

/-- Arm A runs with probe 7 seated. -/
def sSeated : State := onA (withProbe sRun 7 (probe7 .seated)) (fun m => { m with seq := { m.seq with seated := .probe 7 } })

/-- An arm of these states serves a request that arrives on its empty queue. -/
theorem test_serves (s : State) (a : ArmId) (r : Request) (h : s.dev.link.held = false)
    (hm : (s.dev.cell.arm a).port.mode = .run) (ht : (s.dev.cell.arm a).port.transmit = [])
    (hq : (s.dev.cell.arm a).port.queue = []) : s.serves a r := ⟨h, hm, by rw [ht]; decide, .inl hq⟩

/-- One refusal of each kind: a kind byte out of range, tip 6, a TOUCH with tip 0, no seated probe, a TOUCH during a change, the
second tip of a probe with one, and a request in STARTING. -/
theorem test_premises_RefusedCorrectChangesNothing :
    let changing := withSeq sSeated (.probe 7) (.cycle .stageIn drop7)
    let starting := onA s0 (fun m => { m with port := { m.port with mode := .starting, phase := some .listen } })
    let waiting (n : Nat) := onA starting (fun m => { m with port := { m.port with
      queue := [.correct 9 1 0 ⟨0, 0, 0⟩, .heartbeat 1], transmit := List.replicate n (.refuse 0) } })
    sRun.serves .armA (.correct 9 3 0 ⟨0, 0, 0⟩) ∧ ¬(3 = 1 ∨ 3 = 2) ∧ ¬(6 ≤ 5) ∧
      sRun.serves .armA (.correct 9 1 5 ⟨0, 0, 0⟩) ∧ (sRun.dev.cell.arm .armA).seq.seated = .noProbe ∧ 5 ≤ 5 ∧ 5 ≠ 0 ∧
      changing.serves .armA (.correct 9 2 1 ⟨0, 0, 0⟩) ∧ (changing.dev.cell.arm .armA).seq.seated = .probe 7 ∧
      (changing.dev.cell.arm .armA).seq.state ≠ .idle ∧
      sSeated.serves .armA (.correct 9 2 2 ⟨0, 0, 0⟩) ∧ (sSeated.dev.cell.arm .armA).seq.seated = .probe 7 ∧
      (sSeated.dev.cell.arm .armA).seq.state = .idle ∧ (sSeated.dev.cell.probe 7).tips.length < 2 ∧
      starting.dev.link.held = false ∧ (starting.dev.cell.arm .armA).port.mode = .starting ∧
      (starting.dev.cell.arm .armA).port.queue = [] ∧ (starting.dev.cell.arm .armA).port.transmit.length ≤ 12 ∧
      (∀ n ∈ [12, 13], ((waiting n).dev.cell.arm .armA).port.queue = .correct 9 1 0 ⟨0, 0, 0⟩ :: [.heartbeat 1] ∧
        (waiting n).dev.link.held = false ∧ ((waiting n).dev.cell.arm .armA).port.mode = .starting ∧
        ((waiting n).dev.cell.arm .armA).port.transmit.length = n) :=
  ⟨test_serves _ _ _ rfl rfl rfl rfl, by decide, by decide, test_serves _ _ _ rfl rfl rfl rfl, rfl, by decide, by decide,
    test_serves _ _ _ rfl rfl rfl rfl, rfl, by decide, test_serves _ _ _ rfl rfl rfl rfl, rfl, rfl, by decide, rfl, rfl, rfl,
    by decide, by decide⟩

/-- Outside CYCLE: an arm in IDLE, and one in CHANGE_FAULT, with a last sample and without; the staging box is rack box 0. -/
theorem test_premises_ServedCorrect_exits :
    ∀ seq ∈ [SeqState.idle, .changeFault .stop .dropDepart drop7], ∀ u ∈ [none, some ⟨0, 0, 0⟩],
      let m := ((onA sRun (fun m => { m with seq := { m.seq with state := seq }, lastSample := u })).dev.cell.arm .armA)
      m.seq.state.inCycle = false ∧ m.lastSample = u ∧ m.rackBox 0 = some roomy.staging := by decide

/-- A MOVE with tip 0, a MOVE in the open staging box during a change, and a TOUCH with the one tip of probe 7. -/
theorem test_premises_ServedCorrectAnswersAndBecomesTheLastSample :
    let moving := withSeq sRun .noProbe (.cycle .stageIn pick7)
    (sRun.serves .armA (.correct 9 1 0 ⟨0, 0, 0⟩) ∧
      ((sRun.dev.cell.arm .armA).takeSample ⟨0, 0, 0⟩).closedBoxesAt ⟨0, 0, 0⟩ = [] ∧
      sRun.dev.cell.missingAt .armA ⟨0, 0, 0⟩ = []) ∧
    ((moving.dev.cell.arm .armA).seq.state.inCycle = true ∧
      moving.serves .armA (.correct 9 1 0 ⟨-90000000, -85000000, -80000000⟩) ∧
      ((moving.dev.cell.arm .armA).takeSample ⟨-90000000, -85000000, -80000000⟩).closedBoxesAt
        ⟨-90000000, -85000000, -80000000⟩ = []) ∧
    (sSeated.serves .armA (.correct 9 2 1 ⟨0, 0, 0⟩) ∧ (sSeated.dev.cell.arm .armA).seq.seated = .probe 7 ∧
      (sSeated.dev.cell.arm .armA).seq.state = .idle ∧
      nth (sSeated.dev.cell.probe 7).tips 1 = some ⟨⟨0, 0, -100000⟩, 2000, .qualified, some 20000, 4⟩ ∧
      ((sSeated.dev.cell.arm .armA).takeSample ⟨0, 0, 0⟩).closedBoxesAt ⟨0, 0, 0⟩ = [] ∧
      sSeated.dev.cell.missingAt .armA ⟨0, 0, 0⟩ = []) :=
  ⟨⟨test_serves _ _ _ rfl rfl rfl rfl, by decide, by decide⟩, ⟨rfl, test_serves _ _ _ rfl rfl rfl rfl, by decide⟩,
    ⟨test_serves _ _ _ rfl rfl rfl rfl, rfl, rfl, rfl, by decide, by decide⟩⟩

/-- A tip of probe 7 short of its limit of 5, and one that reaches it. -/
theorem test_premises_TouchCountsItsTip :
    nth ((withProbe s0 7 { probe7 .seated with touchLimit := 6 }).dev.cell.probe 7).tips 1 =
        some ⟨⟨0, 0, -100000⟩, 2000, .qualified, some 20000, 4⟩ ∧
      nth ((withProbe s0 40 (probe7 .seated)).dev.cell.probe 40).tips 1 =
        some ⟨⟨0, 0, -100000⟩, 2000, .qualified, some 20000, 4⟩ ∧
      ((withProbe s0 40 (probe7 .seated)).dev.cell.probe 40).touchLimit = 4 + 1 := by decide

/-! ### Premises: the sensor bus -/

theorem test_premises_BusSetBusDisableAnnounceClear : s0.takes 7 ∧ s0.takes 2 := ⟨test_takes_at_reset 7, test_takes_at_reset 2⟩

theorem test_premises_NodeAddAndNodeRemove :
    s0.takes 5 ∧ 16 ≤ 16 ∧ 62 ≤ 62 ∧ 4 ≤ 4 ∧ (s0.dev.bus.node 16).state = .unused ∧
      (∀ n ∈ s0.dev.bus.nodes.val, n.state ≠ .unused → n.address ≠ 62) ∧
      sPoll.takes 3 ∧ (sPoll.dev.bus.node 1).state ≠ .unused ∧
      (∀ c ∈ sPoll.dev.temp.channels.val, c.state ≠ .unused → c.node ≠ 1) ∧
      sPoll.dev.bus.phase = .polling (sPoll.dev.bus.node 1).address :=
  ⟨test_takes_at_reset 5, by decide, by decide, by decide, by decide, by decide, ⟨rfl, by decide⟩, by decide, by decide, by decide⟩

/-- The bus FAULTED with the line at this level. -/
def sFaulted (driven : Bool) : State := onBus s0 (fun b => { b with
  state := .faulted, lineDriven := driven, releasedTimer := if driven then none else some 100 })

theorem test_premises_BusEnableAndBusRecover :
    s0.takes 2 ∧ s0.dev.bus.state = .off ∧ sPoll.takes 2 ∧ sPoll.dev.bus.state ≠ .off ∧ sPoll.dev.bus.state ≠ .faulted ∧
      (sFaulted false).takes 2 ∧ (sFaulted false).dev.bus.state = .faulted ∧ (sFaulted false).dev.bus.lineDriven = false ∧
      (sFaulted true).takes 2 ∧ (sFaulted true).dev.bus.lineDriven = true :=
  ⟨test_takes_at_reset 2, rfl, ⟨rfl, by decide⟩, by decide, by decide, ⟨rfl, by decide⟩, rfl, rfl, ⟨rfl, by decide⟩, rfl⟩

/-- Node 1 is due from address 0 and no longer from its own address. -/
theorem test_premises_NextNodeIsTheLowestDueAddress :
    (∃ n ∈ sPoll.dev.bus.nodes.val, 8 < n.address ∧ n.state = .online) ∧
      (∀ n ∈ sPoll.dev.bus.nodes.val, ¬(sPoll.dev.bus.lastPolled < n.address)) := by decide

theorem test_premises_PollPeriodExpiryAndSlotEnd :
    let between := onBus s0 (fun b => { b with state := .run })
    between.dev.bus.periodTimer.isSome = true ∧ between.dev.bus.state = .run ∧ between.dev.bus.phase = .between ∧
      sPoll.dev.link.held = false ∧ sPoll.dev.bus.periodTimer.isSome = true ∧ sPoll.dev.bus.phase ≠ .between ∧
      s0.dev.bus.periodTimer.isSome = true ∧ s0.dev.bus.state ≠ .run ∧ sSlot.dev.bus.slotTimer.isSome = true := by decide

/-- A poll with retries left, and at its last attempt, of a node ONLINE, REJOINING before and at its second good poll, and OFFLINE;
one miss short of the long retry count, and far from it. -/
theorem test_premises_PollAttemptsAndOutcomes :
    let node (st : NodeState) (missed good : Nat) := onBus sPoll (fun b => { b with
      attempt := 2, nodes := b.nodes.set 1 ⟨9, 2, st, missed, good⟩ })
    let sent := onBus sPoll (fun b => { b with sending := true, replyTimer := none })
    (sent.dev.bus.sending = true ∧ sPoll.dev.bus.sending = false ∧ sPoll.dev.bus.attempt < sPoll.dev.bus.shortRetries ∧
      ([20000, 20001] : List Int).length = (sPoll.dev.bus.node 1).channels ∧
      ([20000] : List Int).length ≠ (sPoll.dev.bus.node 1).channels) ∧
    (∀ st ∈ [NodeState.online, .rejoining, .offline], ∀ missed ∈ [5, 6], ∀ good ∈ [0, 1],
      let s := node st missed good
      s.dev.link.held = false ∧ s.dev.bus.state = .run ∧ s.dev.bus.phase = .polling 9 ∧ s.dev.bus.replyTimer.isSome = true ∧
        s.dev.bus.nodeAt 9 = some 1 ∧ s.dev.bus.shortRetries ≤ s.dev.bus.attempt ∧ (s.dev.bus.node 1).state = st ∧
        (s.dev.bus.node 1).good = good ∧ ((s.dev.bus.node 1).missed + 1 < s.dev.bus.longRetry ↔ missed = 5)) := by decide

/-- An address that the previous slot heard, one it did not, and an address out of range; the list with room and full. -/
theorem test_premises_AnnounceIsConfirmedInTheNextSlot :
    let heard (l : List Announce) := onBus sSlot (fun b => { b with previousSlot := [⟨62, 4, 1⟩], announces := l })
    let full : List Announce := [⟨1, 1, 0⟩, ⟨2, 1, 0⟩, ⟨3, 1, 0⟩, ⟨4, 1, 0⟩]
    sSlot.dev.link.held = false ∧ sSlot.dev.bus.phase = .slot ∧ sSlot.dev.bus.nodeAt 62 = none ∧
      (∀ y ∈ sSlot.dev.bus.previousSlot, y.address ≠ 62) ∧ (∃ y ∈ (heard []).dev.bus.previousSlot, y.address = 62) ∧
      (heard full).dev.bus.announces.length = 4 ∧ (∃ y ∈ (heard [⟨62, 1, 0⟩]).dev.bus.announces, y.address = 62) ∧ ¬63 ≤ 62 := by
  decide

theorem test_premises_LineStuckAndRecovery :
    sPoll.dev.link.held = false ∧ sPoll.dev.bus.state = .run ∧ sPoll.dev.bus.phase = .polling 9 ∧
      sPoll.dev.bus.lineDriven = false ∧ sSlot.dev.bus.phase = .slot ∧ s0.dev.bus.state ≠ .run ∧
      (sFaulted true).dev.bus.state = .faulted ∧ (sFaulted true).dev.bus.lineDriven = true ∧
      (sFaulted false).dev.bus.lineDriven = false ∧ (sFaulted false).dev.bus.releasedTimer.isSome = true := by decide

theorem test_premises_StepKeepsTheBusQuietOutsideRun : (sFaulted true).dev.bus.quiet ∧ step (sFaulted true) = .next
    { sFaulted true with dev := (sFaulted true).dev.idle } := ⟨fun _ => by decide, rfl⟩

/-! ### Premises: temperature -/

/-- No channel of these states is configured. -/
theorem test_channels_unused (k : Nat) : sPoll.dev.channel k = Channel.reset := by
  rcases Table.get_mem sPoll.dev.temp.channels k Channel.reset with h | h
  · exact h
  · exact List.eq_of_mem_replicate h

/-- Channel 1 ACTIVE, WAITING, STALE or FAULTED. -/
def sChannel (st : ChannelState) : State := withGroup (channel1 st) (group1 .valid)

theorem test_premises_ChannelCommandsThenEvaluate :
    sPoll.takes 12 ∧ 32 ≤ 32 ∧ (sPoll.dev.bus.node 1).state ≠ .unused ∧ 2 ≤ (sPoll.dev.bus.node 1).channels ∧
      (∀ k, k ≠ 32 → (sPoll.dev.channel k).state ≠ .unused →
        ¬((sPoll.dev.channel k).node = 1 ∧ (sPoll.dev.channel k).index = 2)) ∧
      (sChannel .faulted).takes 3 ∧ ((sChannel .faulted).dev.channel 1).state = .faulted ∧
      ((sChannel .faulted).dev.channel 1).state ≠ .unused ∧ (sChannel .active).takes 3 ∧
      ((sChannel .active).dev.channel 1).state ≠ .faulted :=
  ⟨⟨rfl, by decide⟩, by decide, by decide, by decide, fun k _ h => absurd (by rw [test_channels_unused]; rfl) h,
    ⟨rfl, by decide⟩, by decide, by decide, ⟨rfl, by decide⟩, by decide⟩

theorem test_premises_WorkpieceSetGroupSetTempSet :
    s0.takes 16 ∧ 12 ≤ 12 ∧ 12 < 13 ∧ 0 < 1 ∧ s0.takes 6 ∧ s0.takes 11 ∧ s0.dev.cell.mode .armA = .off ∧ s0.dev.cell.mode .armB = .off ∧
      sRun.takes 11 ∧ sRun.dev.cell.mode .armA ≠ .off :=
  ⟨test_takes_at_reset 16, by decide, by decide, by decide, test_takes_at_reset 6, test_takes_at_reset 11, rfl, rfl, ⟨rfl, by decide⟩,
    by decide⟩

/-- The filtered value, the last accepted reading and the window are 20,000: 20,500 is within the step limit of 500, 20,501 is
not; the third reject faults the channel. -/
theorem test_premises_DeliveriesAreJudged :
    let d := (sChannel .active).dev
    let third := d.setChannel 32 { channel1 .stale with rejects := 2 }
    (d.channel 1).state = .active ∧ (d.channel 1).lastAccepted = some 20000 ∧ (d.channel 1).fine = false ∧
      ¬(d.channel 1).stepLimit < ((20500 : Int) - 20000).natAbs ∧ (d.channel 1).stepLimit < ((20501 : Int) - 20000).natAbs ∧
      (d.channel 1).rejects + 1 < (d.channel 1).rejectLimit ∧ (third.channel 32).rejectLimit ≤ (third.channel 32).rejects + 1 ∧
      (d.channel 2).state = .unused ∧ ((d.channel 1).node = 1 ∧ (d.channel 1).index = 1) ∧
      (∀ j ∈ List.range 34, j ≠ 1 → (d.channel j).state = .unused) ∧ ([20000, 20001] : List Int) ≠ [] ∧
      roundedMean [20000, 20001] = 20001 ∧ roundedMean [-20000, -20001] = -20001 := by decide

theorem test_premises_GroupEvaluation :
    let d := (withGroup (channel1 .stale) { group1 .valid with holdTime := 0 }).dev
    ((d.group 1).state = .valid ∧ ((d.group 1).evaluated (d.members 1)).state = .lost ∧ d.members 1 = [channel1 .stale]) ∧
    (∀ c ∈ [channel1 .active, channel1 .stale], c.state = .active → c.filtered ≠ none) ∧
      (∃ c ∈ [channel1 .active, channel1 .stale], c.state = .active) ∧ (∀ c ∈ [channel1 .stale], c.state ≠ .active) ∧
      (group1 .valid).state = .valid ∧ (group1 .valid).holdTime ≠ 0 ∧ { group1 .valid with holdTime := 0 }.holdTime = 0 ∧
      (group1 .lost).state ≠ .valid := by decide

theorem test_premises_StaleAndHoldTimersExpire :
    let held := withGroup (channel1 .stale) { group1 .held with holdTimer := some 1 }
    (sChannel .active).dev.link.held = false ∧ ((sChannel .active).dev.channel 1).staleTimer.isSome = true ∧
      ((sChannel .active).dev.channel 1).state = .active ∧ ((sChannel .active).dev.channel 2).staleTimer = none ∧
      (held.dev.group 1).holdTimer.isSome = true ∧ (held.dev.group 1).state = .held ∧ (held.dev.group 12).holdTimer = none := by
  decide

theorem test_premises_DriftEvaluationOfATip_clauses :
    let t (st : TipState) : Tip := ⟨⟨0, 0, -100000⟩, 2000, st, some 20000, 4⟩
    (t .due).state = .due ∧ (t .qualified).state = .qualified ∧ (group1 .lost).state = .lost ∧ (group1 .valid).state = .valid ∧
      (group1 .valid).value = some 20000 ∧ (t .drifted).tq = some 20000 ∧ (group1 .empty).state = .empty := by decide

/-! ### Premises: probes -/

theorem test_premises_ProbeDefineAndProbeRetire :
    let retiring := withProbe s0 7 { probe7 (.rack 1) with state := .retiring }
    s0.takes (8 + 8 * 5) ∧ 40 ≤ 40 ∧ 65535 ≤ 65535 ∧ armOfCode 2 = some .armB ∧ 5 ≤ 5 ∧ (s0.dev.cell.probe 40).state = .free ∧
      (∀ p ∈ s0.dev.cell.probes.val, p.state ≠ .free → p.code ≠ 65535) ∧
      retiring.takes 3 ∧ (retiring.dev.cell.probe 7).state = .retiring ∧
      (withProbe s0 7 (probe7 (.rack 1))).takes 3 ∧ ((withProbe s0 7 (probe7 (.rack 1))).dev.cell.probe 7).state ≠ .retiring ∧
      ((withProbe s0 7 (probe7 (.rack 1))).dev.cell.probe 7).location ≠ .out ∧
      ((withProbe s0 7 (probe7 .out)).dev.cell.probe 7).location = .out :=
  ⟨test_takes_at_reset 48, by decide, by decide, rfl, by decide, by decide, by decide, ⟨rfl, by decide⟩, by decide,
    ⟨rfl, by decide⟩, by decide, by decide, by decide⟩

/-- Probe 7 seated on arm A, whose probe-environment group 1 is VALID: with roomy limits, and with limits of zero. -/
def sQualify (settings : ArmSettings) : State :=
  let s := onA (withProbe (sChannel .active) 7 (probe7 .seated)) (fun m =>
    { m with settings := settings, groups := ⟨0, 0, 0, 1⟩, seq := { m.seq with seated := .probe 7 } })
  s

/-- A signal for group 1 evaluates probe 7, and one for group 2 or for a FREE probe none; with group 1 LOST its one tip drifts. -/
theorem test_premises_DriftEvaluationOfATip :
    let d := (sQualify roomy).dev
    let lost := d.setGroup 1 (group1 .lost)
    (d.cell.probe 7).state ≠ .free ∧ (d.cell.arm (d.cell.probe 7).home).groups.env = 1 ∧ (d.cell.probe 8).state = .free ∧ 1 ∉ [2] ∧
      nth (lost.cell.probe 7).tips 1 = some ⟨⟨0, 0, -100000⟩, 2000, .qualified, some 20000, 4⟩ ∧
      (Tip.evaluate (lost.group 1) lost.temp.driftWindow ⟨⟨0, 0, -100000⟩, 2000, .qualified, some 20000, 4⟩).state = .drifted := by
  decide

theorem test_premises_TipQualifyQualifiesOneTip :
    let s := sQualify roomy
    let r (s : State) : Probe := { s.dev.cell.probe 7 with
      state := .inService
      tips := changeNth (s.dev.cell.probe 7).tips 1 (fun _ => ⟨⟨0, 0, -100000⟩, 2000, .qualified, some 20000, 0⟩) }
    s.takes 12 ∧ nth (s.dev.cell.probe 7).tips 1 = some ⟨⟨0, 0, -100000⟩, 2000, .qualified, some 20000, 4⟩ ∧
      (s.dev.cell.probe 7).state = .inService ∧ (s.dev.cell.probe 7).location = .seated ∧
      (s.dev.cell.arm (s.dev.cell.probe 7).home).seq.state.inCycle = false ∧
      (s.dev.cell.arm (s.dev.cell.probe 7).home).groups.env ≠ 0 ∧ (s.dev.group 1).state ≠ .empty ∧
      (s.dev.group 1).value = some 20000 ∧ (effectiveEnvelope (s.dev.cell.arm .armA).settings (r s).box).emptyOnAxis = false ∧
      (sQualify ArmSettings.reset).takes 12 ∧
      (effectiveEnvelope ((sQualify ArmSettings.reset).dev.cell.arm .armA).settings
        (r (sQualify ArmSettings.reset)).box).emptyOnAxis = true ∧
      s.dev.cell.mode .armA ≠ .run ∧ (sRun.dev.cell.arm .armA).lastSample = some ⟨0, 0, 0⟩ ∧
      sRun.dev.cell.missingAt .armA ⟨0, 0, 0⟩ = [] :=
  ⟨⟨rfl, by decide⟩, by decide, by decide, by decide, by decide, by decide, by decide, by decide, by decide, ⟨rfl, by decide⟩,
    by decide, by decide, by decide, by decide⟩

/-- Arm A stands over bay 1, which nobody holds, or over bays 0 and 1, of which arm B holds the second. -/
theorem test_premises_TipQualify_retest :
    let stands (x : Int) (l : List (Option ArmId)) := withHolders (onA sBays (fun m =>
      { m with settings := { m.settings with safeDepth := -1 }, lastSample := some ⟨x, 0, 0⟩ })) l
    let one := stands 13000000 [none, none, none]
    let two := stands 12000000 [none, some .armB, none]
    (one.dev.cell.mode .armA = .run ∧ (one.dev.cell.arm .armA).lastSample = some ⟨13000000, 0, 0⟩ ∧
      one.dev.cell.missingAt .armA ⟨13000000, 0, 0⟩ = [1] ∧ one.dev.cell.bays.holder 1 ≠ some ArmId.armA.other) ∧
    (two.dev.cell.missingAt .armA ⟨12000000, 0, 0⟩ = [0, 1] ∧ two.dev.cell.bays.holder 0 ≠ some ArmId.armA.other ∧
      two.dev.cell.bays.holder 1 = some ArmId.armA.other) := by decide

theorem test_premises_ReportHitMakesTheProbeSuspect :
    sSeated.serves .armA (.reportHit 3) ∧ (sSeated.dev.cell.arm .armA).seq.seated = .probe 7 ∧
      sRun.serves .armA (.reportHit 3) ∧ (sRun.dev.cell.arm .armA).seq.seated = .noProbe ∧
      (withSeq sRun .unknown .idle).serves .armA (.reportHit 3) ∧
      ((withSeq sRun .unknown .idle).dev.cell.arm .armA).seq.seated = .unknown :=
  ⟨test_serves _ _ _ rfl rfl rfl rfl, rfl, test_serves _ _ _ rfl rfl rfl rfl, rfl, test_serves _ _ _ rfl rfl rfl rfl, rfl⟩

/-! ### Premises: racks -/

/-- Three kept ports and two that are removed, and ten that are added. -/
theorem test_premises_PortConfigKeepsAndAddsPorts :
    let l := [port (.holding 7) true, port .empty false, port .unknown true]
    (withPorts s0 l).takes (18 + 12 * 1) ∧ armOfCode 1 = some .armA ∧ (withPorts s0 l).dev.cell.mode .armA = .off ∧
      ((withPorts s0 l).dev.cell.arm .armA).seq.state = .idle ∧
      (∀ p ∈ l.drop 1, p.state = .empty ∨ p.state = .unknown ∨ p.state = .disabled) ∧
      s0.takes (18 + 12 * 10) ∧ (s0.dev.cell.arm .armA).rack.ports = [] ∧ 10 ≤ 10 :=
  ⟨⟨rfl, by decide⟩, rfl, rfl, rfl, by decide, test_takes_at_reset 138, rfl, by decide⟩

theorem test_premises_ExpectPortDisablePortEnable :
    let s (st : PortState) := withPorts (withProbe s0 40 (probe7 .out)) [port st false]
    armOfCode 1 = some .armA ∧ (s .empty).dev.cell.port? .armA 1 = some (port .empty false) ∧
      ((s .empty).dev.cell.arm .armA).seq.state = .idle ∧ (s .empty).takes 5 ∧ ((s .empty).dev.cell.probe 40).state ≠ .free ∧
      ((s .empty).dev.cell.probe 40).state ≠ .retiring ∧ ((s .empty).dev.cell.probe 40).home = .armA ∧
      ((s .empty).dev.cell.probe 40).location = .out ∧
      (s (.expecting 3)).takes 5 ∧ (s (.expecting 3)).dev.cell.port? .armA 1 = some (port (.expecting 3) false) ∧
      (s .unknown).takes 4 ∧ (s .unknown).dev.cell.port? .armA 1 = some (port .unknown false) ∧
      (s .disabled).takes 4 ∧ (s .disabled).dev.cell.port? .armA 1 = some (port .disabled false) :=
  ⟨rfl, rfl, rfl, ⟨rfl, by decide⟩, by decide, by decide, by decide, by decide, ⟨rfl, by decide⟩, rfl, ⟨rfl, by decide⟩, rfl,
    ⟨rfl, by decide⟩, rfl⟩

/-- Arm A runs with the sequencer in a state; port 1 in a state has a line with this present level, this taken level and this filter
timer, and the rack this filter time and this mask. -/
def sLine (seq : SeqState) (st : PortState) (line : PortLine) (now taken : Bool) (t : Timer) (filterTime : Nat) (mask : Timer) : State :=
  onA (withPorts sRun [((port st false).take line taken).setFilter line t, port .empty false]) (fun m =>
    { m with
      rack := { m.rack with
        lines := m.rack.lines.set 1 (PortLevels.setLevel ⟨false, false⟩ line now)
        params := { m.rack.params with filterTime := filterTime }
        maskTimer := mask }
      seq := { m.seq with state := seq } })

/-- What a clause asks of that state. -/
def meetsLine (s : State) (seq : SeqState) (st : PortState) (line : PortLine) (now taken : Bool) (t : Timer) (filterTime : Nat)
    (mask : Timer) : Bool :=
  let m := s.dev.cell.arm .armA
  !s.dev.link.held && m.seq.state == seq && (m.rack.lines.get 1 ⟨false, false⟩).level line == now &&
    (s.dev.cell.port? .armA 1).map (fun x => (x.state, x.taken line, x.filter line)) == some (st, taken, t) &&
    m.rack.params.filterTime == filterTime && m.rack.maskTimer == mask && m.stop.isNone && (s.dev.cell.port? .armA 3).isNone

/-- The change of a line of port 1 and the expiry of its filter, for both lines and levels: a line that departs from its taken level, one
that returns to it, with a filter time and without, under a mask and not, at a DISABLED port and another. Port 3 is not configured. -/
theorem test_premises_LinesAreFilteredTakenAndDispatched :
    ∀ line ∈ [PortLine.occupied, .head], ∀ now taken, ∀ t ∈ [none, some 10], ∀ filterTime ∈ [0, 100], ∀ mask ∈ [none, some 80],
      ∀ st ∈ [PortState.empty, .disabled],
        meetsLine (sLine .idle st line now taken t filterTime mask) .idle st line now taken t filterTime mask = true := by decide

/-- The dispatch at a port outside the plan in CYCLE and in CHANGE_FAULT, and at a plan port in CHANGE_FAULT; a DEFINED probe and a
RETIRING one. -/
theorem test_premises_LinesAreFilteredTakenAndDispatched_dispatch :
    (∀ seq ∈ [SeqState.cycle .stageIn ⟨none, some 7, none, some 2, 0⟩, .changeFault .stop .pickDepart ⟨none, some 7, none, some 2, 0⟩,
        .changeFault .stop .dropDepart drop7, .changeFault .stop .pickDepart pick7],
      ∀ st ∈ [PortState.empty, .expecting 7, .holding 7, .vacant 7, .unknown], ∀ line ∈ [PortLine.occupied, .head], ∀ now,
        meetsLine (sLine seq st line now (!now) (some 10) 10 none) seq st line now (!now) (some 10) 10 none = true) ∧
    (drop7.drop = some 1 ∧ pick7.pick = some 1) ∧
    ((withProbe s0 40 (probe7 .out)).dev.cell.probe 40).state ≠ .retiring ∧
    ((withProbe s0 40 { probe7 .out with state := .retiring }).dev.cell.probe 40).state = .retiring := by decide

/-! ### Premises: probe changes -/

/-- Arm A runs, probe 7 is in port 2, port 1 is EMPTY. -/
def sPick : State := withPorts (withProbe sRun 7 (probe7 (.rack 2))) [port .empty false, port (.holding 7) true]

/-- Arm A runs with probe 7 seated, and its rack has these ports. -/
def sDrop (l : List Port) : State := withPorts sSeated l

theorem test_premises_ChangeBeginMakesThePlan :
    let two := sDrop [port .unknown true, port .empty false]
    let vacant := sDrop [port .empty false, port (.vacant 7) false]
    let both := withProbe (sDrop [port .empty false, port (.holding 8) true]) 8 { probe7 (.rack 2) with code := 4411 }
    (sPick.serves .armA (.changeBegin 5 7) ∧ (sPick.dev.cell.arm .armA).stop = none ∧
      (sPick.dev.cell.arm .armA).seq.state = .idle ∧ (sPick.dev.cell.arm .armA).seq.seated = .noProbe ∧
      (sPick.dev.cell.probe 7).state = .inService ∧ (sPick.dev.cell.probe 7).home = .armA ∧
      nth (sPick.dev.cell.arm .armA).rack.ports 2 = some (port (.holding 7) true) ∧
      nth (sPick.dev.cell.arm .armA).rack.ports 1 = some (port .empty false) ∧
      (sPick.dev.cell.envelopeFor .armA (.probe 7)).emptyOnAxis = false) ∧
    (two.serves .armA (.changeBegin 5 0) ∧ (two.dev.cell.arm .armA).seq.seated = .probe 7 ∧
      nth (two.dev.cell.arm .armA).rack.ports 2 = some (port .empty false) ∧
      (∀ y ∈ (two.dev.cell.arm .armA).rack.ports, y.state ≠ .vacant 7) ∧
      (∀ y, nth (two.dev.cell.arm .armA).rack.ports 1 = some y → y.state ≠ .empty) ∧
      (two.dev.cell.envelopeFor .armA .noProbe).emptyOnAxis = false) ∧
    (vacant.serves .armA (.changeBegin 5 0) ∧ nth (vacant.dev.cell.arm .armA).rack.ports 2 = some (port (.vacant 7) false)) ∧
    (both.serves .armA (.changeBegin 5 8) ∧ (both.dev.cell.arm .armA).seq.seated = .probe 7 ∧ (both.dev.cell.arm .armA).stop = none ∧
      (both.dev.cell.arm .armA).seq.state = .idle ∧ nth (both.dev.cell.arm .armA).rack.ports 2 = some (port (.holding 8) true) ∧
      (both.dev.cell.probe 8).home = .armA ∧ (both.dev.cell.probe 8).state = .inService ∧
      (both.dev.cell.envelopeFor .armA .noProbe).emptyOnAxis = false ∧
      (both.dev.cell.envelopeFor .armA (.probe 8)).emptyOnAxis = false) :=
  ⟨⟨test_serves _ _ _ rfl rfl rfl rfl, by decide⟩,
    ⟨test_serves _ _ _ rfl rfl rfl rfl, rfl, rfl, by decide, fun y h => by cases h; decide, by decide⟩,
    ⟨test_serves _ _ _ rfl rfl rfl rfl, rfl⟩, ⟨test_serves _ _ _ rfl rfl rfl rfl, by decide⟩⟩

/-- A plan that drops probe 7 into port 1 and picks probe 8 from port 2. -/
def plan78 : Plan := ⟨some 7, some 8, some 1, some 2, 0⟩

/-- Arm A in a step of that change; a port's lines have these levels, and its taken levels are these, with both filters running. -/
def sChange (step : Step) (k : Nat) (lines taken : PortLevels) (f : Sequencer → Sequencer) : State :=
  onA (withProbe (sDrop [port .empty false, port (.holding 8) true]) 8 { probe7 (.rack 2) with code := 4411 }) (fun m =>
    { m with
      rack := { m.rack with
        lines := m.rack.lines.set k lines
        ports := changeNth m.rack.ports k (fun x =>
          { x with occupied := taken.occupied, head := taken.head, occupiedFilter := some 10, headFilter := some 10 }) }
      seq := f { m.seq with state := .cycle step plan78, stepTimer := some 60000 } })

/-- A running arm A takes this change at the expiry of the filter. -/
def takes (s : State) (k : Nat) (line : PortLine) (level : Bool) : Bool :=
  !s.dev.link.held && (s.dev.cell.arm .armA).port.mode == .run &&
    ((s.dev.cell.arm .armA).rack.lines.get k ⟨false, false⟩).level line == level &&
    ((s.dev.cell.port? .armA k).map (fun x => x.state != .disabled && (x.filter line).isSome && x.taken line == !level)) == some true

/-- The steps that line events drive: HEAD set, OCCUPIED set before and after the report, HEAD clear; HEAD set; OCCUPIED clear and HEAD
clear in either order. -/
theorem test_premises_EventsDriveTheStepsOfAChange_lines :
    takes (sChange .dropDock 1 ⟨false, true⟩ ⟨false, false⟩ id) 1 .head true = true ∧
    (∀ id, let s := sChange .dropRelease 1 ⟨true, true⟩ ⟨false, true⟩ (fun q => { q with dropId := id })
      takes s 1 .occupied true = true ∧ (s.dev.cell.arm .armA).seq.dropOccupied = false ∧ (s.dev.cell.arm .armA).seq.dropId = id) ∧
    takes (sChange .dropDepart 1 ⟨true, false⟩ ⟨true, true⟩ id) 1 .head false = true ∧
    takes (sChange .pickDock 2 ⟨true, true⟩ ⟨true, false⟩ id) 2 .head true = true ∧
    (∀ other, let s := sChange .pickDepart 2 ⟨false, true⟩ ⟨true, true⟩ (fun q => { q with pickHead := other })
      takes s 2 .occupied false = true ∧ (s.dev.cell.arm .armA).seq.pickOccupied = false ∧
        (s.dev.cell.arm .armA).seq.pickHead = other) ∧
    (∀ other, let s := sChange .pickDepart 2 ⟨false, false⟩ ⟨false, true⟩ (fun q => { q with pickOccupied := other })
      takes s 2 .head false = true ∧ (s.dev.cell.arm .armA).seq.pickHead = false ∧
        (s.dev.cell.arm .armA).seq.pickOccupied = other) ∧
    plan78.drop = some 1 ∧ plan78.pick = some 2 ∧ plan78.old = some 7 ∧ plan78.target = some 8 := by decide

/-- Arm A in a step of that change, with these engage flag, engage timer, latch level and OCCUPIED progress. -/
def sEngage (step : Step) (engage : Bool) (t : Timer) (latch occupied : Bool) : State :=
  sChange step 2 ⟨true, true⟩ ⟨true, true⟩ (fun q =>
    { q with engage := engage, engageTimer := t, latch := latch, dropOccupied := occupied })

/-- The reports of a change, and the engage timer. -/
theorem test_premises_EventsDriveTheStepsOfAChange :
    let on (step : Step) (r : Request) : Prop := ∀ e t l o, (sEngage step e t l o).serves .armA r ∧
      ((sEngage step e t l o).dev.cell.arm .armA).seq.state = .cycle step plan78 ∧
      ((sEngage step e t l o).dev.cell.arm .armA).seq.engage = e ∧ ((sEngage step e t l o).dev.cell.arm .armA).seq.engageTimer = t ∧
      ((sEngage step e t l o).dev.cell.arm .armA).seq.latch = l ∧
      ((sEngage step e t l o).dev.cell.arm .armA).seq.dropOccupied = o ∧ (sEngage step e t l o).dev.link.held = false
    (on .stageIn (.reportStaged 6) ∧ on .stageOut (.reportStaged 6) ∧ on .pickDock (.reportStaged 6) ∧
      on .dropRelease (.reportId 6 0) ∧ on .dropRelease (.reportId 6 1) ∧ on .pickEngage (.reportId 6 4411) ∧
      on .pickEngage (.reportId 6 0) ∧ on .pickDepart (.reportId 6 0)) ∧
    sRun.serves .armA (.reportStaged 6) ∧ sRun.serves .armA (.reportId 6 0) ∧ (sRun.dev.cell.arm .armA).seq.state.inCycle = false ∧
      ((sEngage .pickEngage false none true false).dev.cell.probe 8).code = 4411 ∧ 4411 ≠ 0 ∧ 4410 ≠ 4411 := by
  have h : ∀ step (r : Request), ∀ e t l o, (sEngage step e t l o).serves .armA r :=
    fun _ _ _ _ _ _ => test_serves _ _ _ rfl rfl rfl rfl
  exact ⟨⟨fun _ _ _ _ => ⟨h _ _ _ _ _ _, rfl, rfl, rfl, rfl, rfl, rfl⟩, fun _ _ _ _ => ⟨h _ _ _ _ _ _, rfl, rfl, rfl, rfl, rfl, rfl⟩,
    fun _ _ _ _ => ⟨h _ _ _ _ _ _, rfl, rfl, rfl, rfl, rfl, rfl⟩, fun _ _ _ _ => ⟨h _ _ _ _ _ _, rfl, rfl, rfl, rfl, rfl, rfl⟩,
    fun _ _ _ _ => ⟨h _ _ _ _ _ _, rfl, rfl, rfl, rfl, rfl, rfl⟩, fun _ _ _ _ => ⟨h _ _ _ _ _ _, rfl, rfl, rfl, rfl, rfl, rfl⟩,
    fun _ _ _ _ => ⟨h _ _ _ _ _ _, rfl, rfl, rfl, rfl, rfl, rfl⟩, fun _ _ _ _ => ⟨h _ _ _ _ _ _, rfl, rfl, rfl, rfl, rfl, rfl⟩⟩,
    test_serves _ _ _ rfl rfl rfl rfl, test_serves _ _ _ rfl rfl rfl rfl, rfl, by decide, by decide, by decide⟩

/-- A change on each plan port that its step does not await: OCCUPIED set in DROP_DOCK, HEAD clear in PICK_DOCK; and HEAD set at a port
outside the plan. -/
theorem test_premises_AbortsEndTheChange :
    let s := sEngage .pickDock false none false false
    let stops := onA (sChange .dropDock 2 ⟨true, true⟩ ⟨true, false⟩ id) (fun m =>
      { m with seq := { m.seq with state := .cycle .dropDock drop7 } })
    (armOfCode 1 = some .armA ∧ (s.dev.cell.arm .armA).seq.state = .cycle .pickDock plan78 ∧ s.dev.link.held = false ∧
      (s.dev.cell.arm .armA).seq.stepTimer.isSome = true ∧ s.takes 3 ∧ s.serves .armA (.changeAbort 4)) ∧
    ((sRun.dev.cell.arm .armA).seq.state.inCycle = false ∧ sRun.takes 3 ∧ sRun.serves .armA (.changeAbort 4)) ∧
    (takes (sChange .dropDock 1 ⟨true, false⟩ ⟨false, false⟩ id) 1 .occupied true = true ∧
      takes (sChange .pickDock 2 ⟨true, false⟩ ⟨true, true⟩ id) 2 .head false = true) ∧
    (takes stops 2 .head true = true ∧ (stops.dev.cell.arm .armA).seq.state = .cycle .dropDock drop7 ∧ drop7.drop ≠ some 2 ∧
        drop7.pick ≠ some 2 ∧ (stops.dev.cell.arm .armA).stop = none) ∧
    (s.takes 3 ∧ (s.dev.cell.arm .armA).port.mode = .run ∧ (s.dev.cell.arm .armA).port.silenceTimer.isSome = true) :=
  ⟨⟨rfl, rfl, rfl, rfl, ⟨rfl, by decide⟩, test_serves _ _ _ rfl rfl rfl rfl⟩,
    ⟨rfl, ⟨rfl, by decide⟩, test_serves _ _ _ rfl rfl rfl rfl⟩, by decide, by decide, ⟨⟨rfl, by decide⟩, by decide⟩⟩

/-- The records that an abort meets: in every step a change that drops probe 7 into port 1 and picks probe 8 from port 2; the plan ports in
ascending number. -/
theorem test_premises_AbortsEndTheChange_records :
    (∀ step ∈ [Step.stageIn, .dropDock, .dropRelease, .dropDepart, .pickDock, .pickEngage, .pickDepart, .stageOut],
      let c := (sEngage step false none true false).dev.cell
      (c.arm .armA).seq.state = .cycle step plan78 ∧ (nth (c.arm .armA).rack.ports 1).isSome = true ∧
        (nth (c.arm .armA).rack.ports 2).isSome = true) ∧
    ([1, 2] : List Nat).Pairwise (· < ·) ∧ (∀ k, k ∈ [1, 2] ↔ plan78.drop = some k ∨ plan78.pick = some k) :=
  ⟨by decide, by decide, fun k => by simp [plan78, eq_comm]⟩

/-- Arm A is OFF in CHANGE_FAULT after a drop of probe 7 into port 1, the port OCCUPIED or not. -/
def sResolve (occupied : Bool) : State :=
  onA (withPorts (withProbe s0 7 (probe7 .unresolved)) [port .unknown occupied]) (fun m =>
    { m with seq := { m.seq with state := .changeFault .sensor .dropRelease drop7, latch := true } })

/-- The checks of CHANGE_RESOLVE in their order, and an accepted one that names no probe, with the arm OFF. -/
theorem test_premises_ChangeResolveSetsTheRecords :
    (∀ o, (sResolve o).takes 6 ∧ ((sResolve o).dev.cell.arm .armA).port.mode = .off ∧
      ((sResolve o).dev.cell.arm .armA).seq.state = .changeFault .sensor .dropRelease drop7 ∧
      (sResolve o).dev.cell.port? .armA 1 = some (port .unknown o)) ∧
    (armOfCode 1 = some .armA ∧ armOfCode 0 = none ∧ armOfCode 3 = none ∧ 40 < 41 ∧ ¬40 < 40 ∧ s0.takes 6 ∧
      (s0.dev.cell.arm .armA).seq.state = .idle) ∧
    (drop7.old = some 7 ∧ drop7.target = none ∧ drop7.drop = some 1 ∧ drop7.pick = none ∧ (8 ≠ 0 ∧ drop7.old ≠ some 8)) ∧
      ((port .unknown true).occupied = true ∧ (port .unknown false).occupied = false) :=
  ⟨fun _ => ⟨⟨rfl, by show 4 - 6 + 256 ≤ 1024; decide⟩, rfl, rfl, rfl⟩,
    ⟨rfl, rfl, rfl, by decide, by decide, test_takes_at_reset 6, rfl⟩, by decide, by decide⟩

/-- Arm A runs in CHANGE_FAULT after a change of probe 7 for probe 8: port 1 OCCUPIED, port 2 not, the latch asserted; a probe 8 that
the limits take and one that they do not. -/
theorem test_premises_ChangeResolve_running :
    let fault (z : Int) := onA (withProbe (withProbe sRun 7 (probe7 .unresolved)) 8
        { probe7 .unresolved with code := 4411, tips := [⟨⟨0, 0, z⟩, 2000, .qualified, some 20000, 4⟩] }) (fun m =>
      { m with
        rack := { m.rack with ports := [port .unknown true, port .unknown false] }
        seq := { m.seq with seated := .unknown, state := .changeFault .stop .pickEngage plan78, latch := true } })
    (∀ z, (fault z).takes 6 ∧ ((fault z).dev.cell.arm .armA).port.mode = .run ∧
      ((fault z).dev.cell.arm .armA).seq.state = .changeFault .stop .pickEngage plan78 ∧
      (fault z).dev.cell.port? .armA 1 = some (port .unknown true) ∧ (fault z).dev.cell.port? .armA 2 = some (port .unknown false)) ∧
    ((fault (-100000)).dev.cell.envelopeFor .armA (.probe 8)).emptyOnAxis = false ∧
      ((fault (-300000000)).dev.cell.envelopeFor .armA (.probe 8)).emptyOnAxis = true ∧
    (plan78.old = some 7 ∧ plan78.target = some 8 ∧ plan78.drop = some 1 ∧ plan78.pick = some 2) :=
  ⟨fun _ => ⟨⟨rfl, by show 4 - 6 + 256 ≤ 1024; decide⟩, rfl, rfl, rfl, rfl⟩, by decide, by decide, by decide⟩

/-! ### Premises: the envelope unit -/

theorem test_premises_ArmConfigStoresTheSettings :
    s0.takes 67 ∧ armOfCode 2 = some .armB ∧ s0.dev.cell.mode .armB = .off ∧ roomy.carriage.emptyOnAxis = false ∧
      roomy.volume.emptyOnAxis = false ∧ roomy.unknownBox.emptyOnAxis = false ∧ roomy.staging.emptyOnAxis = false ∧
      (effectiveEnvelope roomy roomy.unknownBox).emptyOnAxis = false ∧
      (effectiveEnvelope { roomy with volume := ⟨⟨0, 0, 0⟩, ⟨0, 0, 0⟩⟩ } roomy.unknownBox).emptyOnAxis = true :=
  ⟨test_takes_at_reset 67, rfl, rfl, by decide⟩

/-- Four moves of arm A in the twelve bays: over a closed rack box, over a missing bay, beyond the envelope, and a clear one; an arm
that has stopped, and one without a last sample. -/
theorem test_premises_CheckJudgesTheMove :
    let racked := withPorts sBays [port .empty false]
    let deep := onA sBays (fun m => { m with settings := { m.settings with safeDepth := -1 } })
    let stopped := onA sRun (fun m => { m with stop := some (.rack 0) })
    let kept := onA sRun (fun m => { m with stop := some (.bay 11 .armB) })
    let lost := onA sRun (fun m => { m with lastSample := none })
    (stopped.serves .armA (.check 2 ⟨0, 0, 0⟩) ∧ (stopped.dev.cell.arm .armA).stop = some (.rack 0) ∧
      kept.serves .armA (.check 2 ⟨0, 0, 0⟩) ∧ (kept.dev.cell.arm .armA).stop = some (.bay 11 .armB)) ∧
    (lost.serves .armA (.check 2 ⟨0, 0, 0⟩) ∧ (lost.dev.cell.arm .armA).stop = none ∧
      (lost.dev.cell.arm .armA).lastSample = none) ∧
    (racked.serves .armA (.check 2 ⟨1000000, 0, 0⟩) ∧ (racked.dev.cell.arm .armA).stop = none ∧
      (racked.dev.cell.arm .armA).lastSample = some ⟨0, 0, 0⟩ ∧ (racked.dev.cell.arm .armA).isOpen 1 = false ∧
      (racked.dev.cell.arm .armA).rackBox 1 = some ⟨⟨1000000, 0, 0⟩, ⟨1100000, 100000, 100000⟩⟩ ∧
      (racked.dev.cell.arm .armA).rackBox 0 = some roomy.staging ∧ ¬(0 : Int) ≤ roomy.staging.hi.x) ∧
    (deep.serves .armA (.check 2 ⟨9900000, 0, 0⟩) ∧ 0 < deep.dev.cell.bays.holders.length ∧
      deep.dev.cell.bays.holder 0 ≠ some .armA ∧ (-1 : Int) < 0 + (deep.dev.cell.usedBox .armA).hi.z ∧
      deep.dev.cell.bays.origin ≤ (9900000 : Int) + 0 + (deep.dev.cell.usedBox .armA).hi.x + 100000) ∧
    (sRun.serves .armA (.check 2 ⟨100000001, 0, 0⟩) ∧ (sRun.dev.cell.envelope .armA).hi.x = 100000000 ∧
      sRun.dev.cell.bays.holders = []) :=
  ⟨⟨test_serves _ _ _ rfl rfl rfl rfl, rfl, test_serves _ _ _ rfl rfl rfl rfl, rfl⟩, ⟨test_serves _ _ _ rfl rfl rfl rfl, rfl, rfl⟩,
    ⟨test_serves _ _ _ rfl rfl rfl rfl, by decide⟩, ⟨test_serves _ _ _ rfl rfl rfl rfl, by decide⟩,
    ⟨test_serves _ _ _ rfl rfl rfl rfl, by decide⟩⟩

/-! ### Premises: bays and stop latches -/

theorem test_premises_BaysAreConfiguredClearedAndTimedOut :
    let held := withHolders s0 [some .armA, none]
    let waits := onA sBays (fun m => { m with wait := some ⟨8, 0, 1, some 1⟩ })
    (s0.takes 7 ∧ 0 < 1 ∧ 32 < 33 ∧ s0.dev.cell.mode .armA = .off ∧ s0.dev.cell.mode .armB = .off ∧
      (∀ h ∈ s0.dev.cell.bays.holders, h = none) ∧
      (2147483647 : Int) < 2147483647 + (1 : Nat) * (min (max 10000 10000) 10000000 : Int) ∧
      (2147473647 : Int) + (1 : Nat) * (min (max 10000 10000) 10000000 : Int) ≤ 2147483647) ∧
    (sRun.takes 7 ∧ ¬(sRun.dev.cell.mode .armA = .off)) ∧
    (held.takes 7 ∧ ¬∀ h ∈ held.dev.cell.bays.holders, h = none) ∧
    (held.takes 3 ∧ held.dev.cell.mode .armA = .off ∧ (held.dev.cell.arm ArmId.armA.other).wait = none) ∧ sRun.takes 3 ∧
    (waits.dev.link.held = false ∧ (waits.dev.cell.arm .armA).wait = some ⟨8, 0, 1, some 1⟩ ∧
      waits.dev.cell.mode .armA = .run ∧ (sBays.dev.cell.arm .armA).wait = none) :=
  ⟨⟨test_takes_at_reset 7, by decide⟩, ⟨⟨rfl, by decide⟩, by decide⟩, ⟨⟨rfl, by decide⟩, by decide⟩,
    ⟨⟨rfl, by decide⟩, by decide⟩, ⟨rfl, by decide⟩, by decide⟩

/-- Twelve bays: bays 3 and 4 held by arm B, bay 6 by arm A. -/
def sHold : State := withHolders sBays
  [none, none, none, some .armB, some .armB, none, some .armA, none, none, none, none, none]

theorem test_premises_ReserveIsGrantedRefusedOrWaits :
    let stopped := onA sHold (fun m => { m with stop := some (.rack 0) })
    let waits := onA sHold (fun m => { m with wait := some ⟨8, 3, 3, some 1⟩ })
    let otherWaits := onB sHold (fun m => { m with wait := some ⟨8, 6, 6, some 1⟩ })
    (stopped.serves .armA (.reserve 1 0 0 0) ∧ (stopped.dev.cell.arm .armA).stop ≠ none) ∧
    (sHold.serves .armA (.reserve 1 0 12 0) ∧ (sHold.dev.cell.arm .armA).stop = none ∧
      ¬12 < sHold.dev.cell.bays.holders.length) ∧
    (waits.serves .armA (.reserve 1 0 11 10000) ∧ 11 < waits.dev.cell.bays.holders.length ∧
      (waits.dev.cell.arm .armA).wait ≠ none) ∧
    (sHold.serves .armA (.reserve 1 5 7 0) ∧ (sHold.dev.cell.arm .armA).wait = none ∧
      ∀ k ∈ [5, 6, 7], sHold.dev.cell.bays.holder k ≠ some .armB) ∧
    (sHold.serves .armA (.reserve 1 2 4 0) ∧ sHold.dev.cell.bays.holder 3 = some .armB ∧
      sHold.dev.cell.bays.holder 2 ≠ some .armB) ∧
    (sHold.serves .armA (.reserve 1 2 4 10000) ∧ (sHold.dev.cell.arm .armB).wait = none) ∧
    (otherWaits.serves .armA (.reserve 1 2 4 1) ∧ (otherWaits.dev.cell.arm .armB).wait = some ⟨8, 6, 6, some 1⟩ ∧
      otherWaits.dev.cell.bays.holder 6 = some .armA) :=
  ⟨⟨test_serves _ _ _ rfl rfl rfl rfl, by decide⟩, ⟨test_serves _ _ _ rfl rfl rfl rfl, by decide⟩,
    ⟨test_serves _ _ _ rfl rfl rfl rfl, by decide⟩, ⟨test_serves _ _ _ rfl rfl rfl rfl, by decide⟩,
    ⟨test_serves _ _ _ rfl rfl rfl rfl, by decide⟩, ⟨test_serves _ _ _ rfl rfl rfl rfl, by decide⟩,
    ⟨test_serves _ _ _ rfl rfl rfl rfl, by decide⟩⟩

/-- Arm A stands over bay 0 of the twelve, which it holds with bay 1, and arm B waits for bay 1 or for bays 1 to 3. -/
def sRelease (first last : Nat) : State :=
  withHolders (onB (onA sBays (fun m =>
      { m with settings := { m.settings with safeDepth := -1 }, lastSample := some ⟨11000000, 0, 0⟩ })) (fun m =>
    { m with wait := some ⟨8, first, last, some 100⟩ }))
  [some .armA, some .armA, some .armA, some .armA, none, none, none, none, none, none, none, none]

theorem test_premises_ReleaseFreesBaysAndGrantsTheWait :
    ((sRelease 1 1).serves .armA (.release 2 0 12) ∧ ¬12 < (sRelease 1 1).dev.cell.bays.holders.length) ∧
    ((sRelease 1 1).serves .armA (.release 2 0 11) ∧ ((sRelease 1 1).dev.cell.arm .armA).lastSample = some ⟨11000000, 0, 0⟩ ∧
      0 ∈ (sRelease 1 1).dev.cell.needs .armA ⟨11000000, 0, 0⟩) ∧
    ((sRelease 1 1).serves .armA (.release 2 1 2) ∧ (sRelease 1 1).dev.cell.needs .armA ⟨11000000, 0, 0⟩ = [0] ∧
      ((sRelease 1 1).dev.cell.arm ArmId.armA.other).wait = some ⟨8, 1, 1, some 100⟩ ∧
      (sRelease 1 1).dev.cell.mode ArmId.armA.other = .run ∧ (sRelease 1 1).dev.cell.bays.holder 1 = some .armA) ∧
    ((sRelease 1 3).serves .armA (.release 2 1 2) ∧
      ((sRelease 1 3).dev.cell.arm ArmId.armA.other).wait = some ⟨8, 1, 3, some 100⟩ ∧
      (sRelease 1 3).dev.cell.bays.holder 3 = some .armA) :=
  ⟨⟨test_serves _ _ _ rfl rfl rfl rfl, by decide⟩, ⟨test_serves _ _ _ rfl rfl rfl rfl, by decide⟩,
    ⟨test_serves _ _ _ rfl rfl rfl rfl, by decide⟩, ⟨test_serves _ _ _ rfl rfl rfl rfl, by decide⟩⟩

theorem test_premises_StopReleaseAndTheStopLatch :
    let stopped (o : Bool) := onA (withPorts sRun [{ port .empty false with head := o }]) (fun m => { m with stop := some (.rack 1) })
    sRun.takes 3 ∧ armOfCode 1 = some .armA ∧ (sRun.dev.cell.arm .armA).stop = none ∧
      (stopped true).takes 3 ∧ ((stopped true).dev.cell.arm .armA).stop = some (.rack 1) ∧
      (stopped true).dev.cell.port? .armA 1 = some { port .empty false with head := true } ∧
      (stopped false).takes 3 ∧ (stopped false).dev.cell.port? .armA 1 = some { port .empty false with head := false } ∧
      ((stopped false).dev.cell.arm .armA).rackBox 1 = some ⟨⟨1000000, 0, 0⟩, ⟨1100000, 100000, 100000⟩⟩ ∧
      ((stopped false).dev.cell.arm .armA).closedBoxesAt ⟨0, 0, 0⟩ = [] ∧
      (stopped false).dev.cell.missingAt .armA ⟨0, 0, 0⟩ = [] :=
  ⟨⟨rfl, by decide⟩, rfl, rfl, ⟨rfl, by decide⟩, rfl, rfl, ⟨rfl, by decide⟩, rfl, rfl, by decide, by decide⟩

/-- Arm A below its safe depth in the twelve bays, bay 1 held by this holder. -/
def sOver (h : Option ArmId) : State :=
  withHolders (onA sBays (fun m => { m with settings := { m.settings with safeDepth := -1 } }))
    [some .armA, h, none, none, none, none, none, none, none, none, none, none]

/-- A latch of arm A whose cause stands or not, in the twelve bays: arm B, the intruder of BAY(0, B), stands over bay 0 or nowhere near; arm
A's own last sample lies in the closed box of port 1, or over bays 0 and 1, which it does not hold. -/
theorem test_premises_StopRelease_causes :
    let deep (m : Arm) : Arm := { m with settings := { m.settings with safeDepth := -1 } }
    let s (mine its : Int) := onB (onA (withPorts sBays [port .empty false]) (fun m =>
        { deep m with lastSample := some ⟨mine, 0, 0⟩, stop := some (.bay 0 .armB) })) (fun m =>
      { deep m with lastSample := some ⟨its, 0, 0⟩ })
    (∀ mine its, (s mine its).takes 3 ∧ ((s mine its).dev.cell.arm .armA).stop = some (.bay 0 .armB) ∧
      ((s mine its).dev.cell.arm .armA).lastSample = some ⟨mine, 0, 0⟩ ∧
      ((s mine its).dev.cell.arm .armB).lastSample = some ⟨its, 0, 0⟩) ∧
    ((s 0 11000000).dev.cell.missingAt .armB ⟨11000000, 0, 0⟩ = [0] ∧ (s 0 0).dev.cell.missingAt .armB ⟨0, 0, 0⟩ = []) ∧
    (((s 1050000 0).dev.cell.arm .armA).closedBoxesAt ⟨1050000, 0, 0⟩ = [1] ∧
      ((s 12000000 0).dev.cell.arm .armA).closedBoxesAt ⟨12000000, 0, 0⟩ = [] ∧
      (s 12000000 0).dev.cell.missingAt .armA ⟨12000000, 0, 0⟩ = [0, 1]) :=
  ⟨fun _ _ => ⟨⟨rfl, by show 4 - 3 + 256 ≤ 1024; decide⟩, rfl, rfl, rfl⟩, by decide, by decide⟩

theorem test_premises_SampleOverABayNotHeldSetsTheLatches :
    (0 < sBays.dev.cell.bays.width ∧ (9999999 : Int) ≤ 9999999 ∧ (33999999 : Int) ≤ 34000000) ∧
    ∀ h ∈ [none, some ArmId.armB],
      ((sOver h).dev.link.held = false ∧ ((sOver h).dev.cell.arm .armA).port.mode = .run ∧
        ((sOver h).dev.cell.arm .armA).port.transmit.length ≤ 12 ∧ ((sOver h).dev.cell.arm .armA).port.queue = []) ∧
      (((sOver h).dev.cell.arm .armA).takeSample ⟨11900000, 0, 0⟩).closedBoxesAt ⟨11900000, 0, 0⟩ = [] ∧
      ((sOver h).dev.cell.arm .armA).seq.state.inCycle = false ∧ ((sOver h).dev.cell.arm .armB).seq.state.inCycle = false ∧
      (sOver h).dev.cell.missingAt .armA ⟨11900000, 0, 0⟩ = [1] ∧ (sOver h).dev.cell.bays.holder 1 = h := by decide

/-- The same with the sample in the approach box of port 1, here of an arm whose sequencer is IDLE or in CYCLE. -/
theorem test_premises_SampleOverABayNotHeldSetsTheLatches_rack :
    ∀ h ∈ [none, some ArmId.armB], ∀ seq ∈ [SeqState.idle, .cycle .stageIn ⟨none, some 7, none, some 2, 0⟩],
      let s := onA (withPorts (sOver h) [{ port .empty false with box := ⟨⟨11900000, 0, 0⟩, ⟨12000000, 1, 1⟩⟩ }]) (fun m =>
        { m with seq := { m.seq with state := seq } })
      let m := (s.dev.cell.arm .armA).takeSample ⟨11900000, 0, 0⟩
      s.dev.link.held = false ∧ (s.dev.cell.arm .armA).port.mode = .run ∧ (s.dev.cell.arm .armA).port.transmit.length ≤ 12 ∧
        (s.dev.cell.arm .armA).port.queue = [] ∧ m.closedBoxesAt ⟨11900000, 0, 0⟩ = [1] ∧ m.isOpen 1 = false ∧
        m.rackBox 1 = some ⟨⟨11900000, 0, 0⟩, ⟨12000000, 1, 1⟩⟩ ∧ (s.dev.cell.arm .armA).stop = none ∧
        (s.dev.cell.arm .armA).seq.state = seq ∧ (s.dev.cell.arm .armB).seq.state.inCycle = false ∧
        s.dev.cell.missingAt .armA ⟨11900000, 0, 0⟩ = [1] ∧ s.dev.cell.bays.holder 1 = h := by decide

/-! ### Premises: arm ports -/

/-- Arm A OFF and configured, with one bay. -/
def sReady : State := withHolders (onA s0 (fun m => { m with settings := roomy, configured := true })) [none]

/-- Arm A STARTING in a phase, after some attempts. -/
def sStarting (phase : Phase) (attempts : Nat) : State :=
  onA sReady (fun m => { m with port := { m.port with
    mode := .starting, phase := some phase, phaseTimer := some 1, attempts := attempts } })

theorem test_premises_ArmEnableAndArmDisable :
    sReady.takes 3 ∧ armOfCode 1 = some .armA ∧ (sReady.dev.cell.arm .armA).port.mode = .off ∧
      (sReady.dev.cell.arm .armA).maps.anyLoading = false ∧ (sReady.dev.cell.arm .armA).configured = true ∧
      sReady.dev.cell.bays.holders ≠ [] ∧ s0.takes 3 ∧ (s0.dev.cell.arm .armA).configured = false ∧
      (withMap s0 loading9).takes 3 ∧ ((withMap s0 loading9).dev.cell.arm .armA).maps.anyLoading = true ∧
      (sStarting .listen 0).takes 3 ∧ ((sStarting .listen 0).dev.cell.arm .armA).port.mode = .starting ∧
      sRun.takes 3 ∧ (sRun.dev.cell.arm .armA).port.mode = .run ∧ (sRun.dev.cell.arm .armA).seq.state.inCycle = false :=
  ⟨⟨rfl, by decide⟩, rfl, rfl, rfl, rfl, by decide, test_takes_at_reset 3, rfl, ⟨rfl, by decide⟩, rfl, ⟨rfl, by decide⟩, rfl,
    ⟨rfl, by decide⟩, rfl, rfl⟩

theorem test_premises_BringUpFollowsItsPhases :
    ((sStarting .listen 0).dev.link.held = false ∧ 2 ≠ armCode .armA ∧ (s0.dev.cell.arm .armA).port.mode = .off) ∧
    (((sStarting .agree 2).dev.cell.arm .armA).port.phase = some .agree ∧
      ((sStarting .agree 2).dev.cell.arm .armA).port.phaseTimer.isSome = true ∧
      2 ≤ ((sStarting .agree 2).dev.cell.arm .armA).port.attempts ∧
      ((sStarting .listen 1).dev.cell.arm .armA).port.phase = some .listen ∧
      ((sStarting .listen 1).dev.cell.arm .armA).port.phaseTimer.isSome = true ∧
      ((sStarting .listen 1).dev.cell.arm .armA).port.attempts < 2) ∧
    ((sRun.dev.cell.arm .armA).port.mode = .run ∧ (sRun.dev.cell.arm .armA).port.silenceTimer.isSome = true ∧
      (sRun.dev.cell.arm .armA).seq.state.inCycle = false) := by decide

/-- Arm A STARTING after some attempts: probe 40 of this arm and this location, its one tip at this depth, and where `other` says so probe
1 SEATED on arm A. -/
def sHello (attempts : Nat) (home : ArmId) (l : Location) (z : Int) (other : Bool) : State :=
  let s := withProbe (sStarting .listen attempts) 40
    { probe7 l with home := home, tips := [⟨⟨0, 0, z⟩, 2000, .qualified, some 20000, 4⟩] }
  if other then withProbe s 1 { probe7 .seated with code := 4411 } else s

/-- The records that a HELLO with the code of probe 40 may meet, with no probe seated and with another one seated; its box fits the limits
or not, after fewer than two attempts and after two. -/
theorem test_premises_BringUp_records :
    (∀ attempts ∈ [0, 2], ∀ home ∈ [ArmId.armA, .armB], ∀ l ∈ [Location.out, .rack 10, .seated], ∀ z ∈ [(0 : Int), 300000000], ∀ other,
      let s := sHello attempts home l z other
      let c := s.dev.cell
      s.dev.link.held = false ∧ (c.arm .armA).port.mode = .starting ∧ (c.arm .armA).port.attempts = attempts ∧
        (c.arm .armA).seq.state = .idle ∧ (c.probe 40).code = 4410 ∧ (c.probe 40).state = .inService ∧ (c.probe 40).home = home ∧
        (c.probe 40).location = l ∧ (c.envelopeFor .armA (.probe 40)).emptyOnAxis = decide (z = 300000000) ∧
        (c.envelopeFor .armA .noProbe).emptyOnAxis = false ∧ (c.envelopeFor .armA .unknown).emptyOnAxis = false ∧
        ((c.probe 1).state = if other then .inService else .free) ∧ ((c.probe 1).location = if other then .seated else .nowhere)) ∧
    (let s := onA (sHello 0 .armA .unresolved 0 false) (fun m =>
        { m with seq := { m.seq with seated := .unknown, state := .changeFault .link .pickEngage pick7 } });
      (s.dev.cell.arm .armA).seq.state = .changeFault .link .pickEngage pick7 ∧ (s.dev.cell.arm .armA).port.mode = .starting) := by
  decide

/-- The other probes of those states are FREE, so codes and the seated probe are unique there. -/
theorem test_premises_BringUp_others (attempts : Nat) (home : ArmId) (l : Location) (z : Int) (other : Bool) (n : Nat) (h : n ≠ 40)
    (g : n ≠ 1) : ((sHello attempts home l z other).dev.cell.probe n).state = .free := by
  have base : ((sStarting .listen attempts).dev.cell.probes.get n Probe.reset).state = .free := by
    rcases Table.get_mem (sStarting .listen attempts).dev.cell.probes n Probe.reset with k | k
    · rw [k]; rfl
    · rw [List.eq_of_mem_replicate k]; rfl
  cases other
  · show ((((sStarting .listen attempts).dev.cell.probes.set 40 _).get n Probe.reset)).state = .free
    rw [Table.get_set_other _ _ _ _ _ h]; exact base
  · show (((((sStarting .listen attempts).dev.cell.probes.set 40 _).set 1 _).get n Probe.reset)).state = .free
    rw [Table.get_set_other _ _ _ _ _ g, Table.get_set_other _ _ _ _ _ h]; exact base

/-- Arm A's request queue and transmit list by their lengths. -/
def sQueues (s : State) (q : List Request) (n : Nat) : State :=
  onA s (fun m => { m with port := { m.port with queue := q, transmit := List.replicate n (.refuse 0) } })

theorem test_premises_RequestsAndFramesOfTheArmLink :
    let four := sQueues sRun (List.replicate 4 (.reportHit 1)) 13
    let three := sQueues sRun (List.replicate 3 (.reportHit 1)) 13
    let beat := sQueues sRun [.heartbeat 1, .reportHit 1] 13
    ((s0.dev.cell.arm .armA).port.mode = .off ∧ s0.dev.link.held = false) ∧
    ((three.dev.cell.arm .armA).port.mode ≠ .off ∧ 12 < (three.dev.cell.arm .armA).port.transmit.length ∧
      (three.dev.cell.arm .armA).port.queue.length < 4 ∧ 4 ≤ (four.dev.cell.arm .armA).port.queue.length ∧
      12 < (four.dev.cell.arm .armA).port.transmit.length) ∧
    ((beat.dev.cell.arm .armA).port.transmit.length = 13 ∧
      (beat.dev.cell.arm .armA).port.queue = .heartbeat 1 :: [.reportHit 1] ∧
      13 < ((sQueues sRun [.heartbeat 1] 14).dev.cell.arm .armA).port.transmit.length ∧
      (sRun.dev.cell.arm .armA).port.mode ≠ .off ∧ (sRun.dev.cell.arm .armA).port.queue = [] ∧
      (sRun.dev.cell.arm .armA).port.transmit.length ≤ 12) ∧
    sRun.serves .armA (.heartbeat 1) ∧
    (((sStarting .listen 0).dev.cell.arm .armA).port.mode = .starting ∧
      ((sStarting .listen 0).dev.cell.arm .armA).port.queue = [] ∧
      ((sStarting .listen 0).dev.cell.arm .armA).port.transmit.length ≤ 12) ∧
    ((List.replicate 15 (TxFrame.refuse 0)).length < 16 ∧ 16 ≤ (List.replicate 16 (TxFrame.refuse 0)).length) :=
  ⟨by decide, by decide, by decide, test_serves _ _ _ rfl rfl rfl rfl, by decide, by decide⟩

theorem test_premises_StepKeepsArmsAtRestOutsideRun :
    s0.bothArms (fun m => m.restsOutsideRun ∧ m.withinRoom ∧ m.servesPromptly) ∧
      step { s0 with pending := [.frameSent .armB] } = .next s0 := by
  have h : ∀ m : Arm, m.wait = none → m.seq = Sequencer.reset → m.lastSample = none → m.exitSet = [] → m.port = ArmPort.reset →
      m.restsOutsideRun ∧ m.withinRoom ∧ m.servesPromptly := by
    intro m hw hs hl he hp
    simp only [Arm.restsOutsideRun, Arm.withinRoom, Arm.servesPromptly, hw, hs, hl, he, hp]
    decide
  exact ⟨⟨h _ rfl rfl rfl rfl rfl, h _ rfl rfl rfl rfl rfl⟩, rfl⟩

/-! ### Worked values of the spec -/

/-- R8: 2.5 and −2.5 round to 3 and −3; 17.499987225 to 17; 6.567876 to 7. -/
theorem test_rounding :
    roundDiv 5 2 = 3 ∧ roundDiv (-5) 2 = -3 ∧ roundDiv 17499987225000 1000000000000 = 17 ∧ roundDiv (14 * 234567) 500000 = 7 := by
  decide

/-- R21: 2,147,483,600 + 60 saturates to 2,147,483,647. -/
theorem test_saturation : saturate (2147483600 + 60) = 2147483647 ∧ saturates (2147483600 + 60) = true := by decide

/-- 1.9, map A-X: the components at 1,234,567 between nodes 2 and 3. -/
theorem test_map_interpolation :
    nodeBetween ⟨38, -10, 4, 20⟩ ⟨52, -6, 4, 30⟩ 234567 500000 = ⟨45, -8, 4, 25⟩ ∧
      geometricTerm ⟨45, -8, 4, 25⟩ ⟨14, 5, -4, 0⟩ ⟨9, 2, -20, -40⟩ = ⟨-52, 14, -9⟩ ∧
      abbeTerm ⟨45, -8, 4, 25⟩ ⟨14, 5, -4, 0⟩ ⟨9, 2, -20, -40⟩ ⟨0, -350000, 1200000⟩ = ⟨3, 0, 1⟩ := by decide

/-- 5.1: the box of probe 12. -/
def box12 : Box := ⟨⟨-260000, -365000, 1040000⟩, ⟨260000, -335000, 1215000⟩⟩

theorem test_probe_box :
    tipsBox [⟨⟨0, -350000, 1200000⟩, 15000, .qualified, none, 0⟩, ⟨⟨250000, -350000, 1050000⟩, 10000, .due, none, 0⟩,
      ⟨⟨-250000, -350000, 1050000⟩, 10000, .suspect, none, 0⟩] = box12 := by decide

/-- 7.2: the envelope of arm A with probe 12. -/
theorem test_envelope :
    effectiveEnvelope { ArmSettings.reset with
        carriage := ⟨⟨0, 0, 0⟩, ⟨42000000, 22000000, 15000000⟩⟩
        volume := ⟨⟨-2000000, 1500000, 0⟩, ⟨44000000, 24000000, 15800000⟩⟩ } box12 =
      ⟨⟨0, 1865000, 0⟩, ⟨42000000, 22000000, 14585000⟩⟩ := by decide

/-- 8.1: the bays that the footprints of the table need. -/
theorem test_footprints :
    let b : Bays := ⟨10000000, 2000000, List.replicate 12 none⟩
    let s : ArmSettings := { ArmSettings.reset with safeDepth := 6000000, margin := 100000 }
    b.neededBy s box12 31800000 31800000 4500000 = [] ∧ b.neededBy s box12 31800000 31800000 5000000 = [10, 11] ∧
      b.neededBy s box12 9500000 9500000 7000000 = [] ∧ b.neededBy s box12 9800000 9800000 7000000 = [0] ∧
      b.neededBy s box12 33900000 33900000 7000000 = [11] := by decide

/-- 6.3: with the ring 820, 790, 845, 801, a factor of 24 and F = 2, 1,200 ms is not slow and 1,300 ms is. -/
theorem test_slow_step :
    let p := { PortParams.reset with learning := 2, slowFactor := 24 }
    slowAgainst p [820, 790, 845, 801] 1200 = false ∧ slowAgainst p [820, 790, 845, 801] 1300 = true := by decide

/-- 2.10: the three MAP_OPEN commands of the span check. -/
theorem test_map_span :
    (serveMapOpen 2 3 1 2100000000 2000000 30 s0.dev).status = .badArg ∧
      (serveMapOpen 2 3 1 2147420000 500 64 s0.dev).status = .clamped ∧
      (serveMapOpen 2 3 1 2147430000 500 64 s0.dev).status = .badArg := by decide

/-- R202: READ_ID is the two words 1,291 and 64,244; a frame of idle words is a read frame; a wrong check word is CHECK. -/
theorem test_cell_frames :
    judgeCellFrame 32 [1291, 64244] = some .readId ∧ judgeCellFrame 32 [65535, 65535] = some (.readFrame 2) ∧
      judgeCellFrame 32 [1291, 64245] = some (.cellFrameError .check 1291 2) ∧
      judgeCellFrame 31 [1291] = some (.cellFrameError .bits 1291 1) ∧
      judgeCellFrame 16 [1291] = some (.cellFrameError .length 1291 1) ∧ judgeCellFrame 0 [] = none := by decide

/-- R203: a FREE record gives a body of 20 words, a five-tip record 85. -/
theorem test_probe_words :
    (probeWords 12 Probe.reset).length = 20 ∧
      (probeWords 12 { probe7 .out with tips := List.replicate 5 ⟨⟨0, 0, 0⟩, 0, .due, none, 0⟩ }).length = 85 := by decide

/-- R205: a poll to address 17 on its second attempt; the reply of its two channels. -/
theorem test_bus_frames :
    pollBytes 17 1 = [126, 1, 17, 1, 19, 38] ∧
      (receiveBusFrame ([126, 2, 17, 1, 2, 0, 0, 83, 152, 0, 0, 83, 132] ++ checkBytes [2, 17, 1, 2, 0, 0, 83, 152, 0, 0, 83, 132])) =
        some ⟨true, 2, 17, 1, [21400, 21380]⟩ := by decide

/-- R204, R205: a byte before the start byte is skipped, a frame that a gap ends is no request, and the next start byte begins a frame;
on the bus such a reply has a wrong check value. -/
theorem test_streams :
    let beat : List (Option Byte) := ([126, 25, 7, 0] ++ checkBytes [25, 7, 0]).map some
    armCommands .armA ([some 1, some 126, some 25, none, some 9] ++ beat) =
        [.armFrameDiscarded .armA, .requestArrival .armA (.heartbeat 7)] ∧
      busCommands false ([some 0] ++ [some 126, some 2, none] ++ (126 :: [2, 17, 1, 0] ++ checkBytes [2, 17, 1, 0]).map some) =
        [.reply ⟨false, 2, 0, 0, []⟩, .reply ⟨true, 2, 17, 1, []⟩] := by decide

/-- R193, R202: the reset response and then idle words go out, each word most significant bit first; and so a command comes in. -/
theorem test_words_and_bits :
    s0.dev.link.wordsOut 6 = [1036, 0, 4, 0, 65535, 65535] ∧ s0.dev.link.bitsOut 17 = wordBits 1036 ++ [false] ∧
      judgeCellBits (wordBits 1291 ++ wordBits 64244) = some .readId := by decide

/-- R204: the flag set in its two bytes. -/
theorem test_flag_bits : Flags.bits { Flags.none with thermalAbsent := true, saturated := true } = 1152 := by decide

/-! ### Single steps -/

/-- The step of arm A's change after an outcome, none where no change stands in CYCLE. -/
def stepAfter (o : Host.Outcome State Fault Refusal) : Option Step :=
  match o with
  | .next t =>
    match (t.dev.cell.arm .armA).seq.state with
    | .cycle step _ => some step
    | _ => none
  | _ => none

/-- The line events of a change lead from step to step; one that no step awaits ends it. -/
theorem test_line_driven_steps :
    stepAfter (exec (.filterExpiry .armA 1 .head) (sChange .dropDock 1 ⟨false, true⟩ ⟨false, false⟩ id)) = some .dropRelease ∧
      stepAfter (exec (.filterExpiry .armA 1 .head) (sChange .dropDepart 1 ⟨true, false⟩ ⟨true, true⟩ id)) = some .pickDock ∧
      stepAfter (exec (.filterExpiry .armA 2 .head) (sChange .pickDock 2 ⟨true, true⟩ ⟨true, false⟩ id)) = some .pickEngage ∧
      stepAfter (exec (.filterExpiry .armA 1 .occupied) (sChange .dropDock 1 ⟨true, false⟩ ⟨false, false⟩ id)) = none := by decide

/-- A command of the queue is taken, first in, first out; an empty queue counts a millisecond. -/
theorem test_step_takes_the_front :
    step { s0 with pending := [.readFrame 4, .readId] } =
      .next { pending := [.readId], dev := { s0.dev with link := { s0.dev.link with queue := [] } } } := rfl

theorem test_step_counts :
    (match step s0 with | .next t => t.dev.cell.ms | _ => 7) = 1 := by decide

/-- READ_ID of a part just reset: 731, 4,620, 1, the millisecond count, POWER (R196). -/
theorem test_read_id :
    (match exec .readId s0 with | .next t => t.dev.link.queue | _ => []) =
      [1036, 0, 4, 0].drop 2 ++ [1291, 0, 9, 731, 4620, 1, 0, 0, 0] := by decide

/-- The held part disregards a command and takes the release of the reset input. -/
theorem test_reset_input :
    exec .readId sHeld = .next sHeld ∧
      (match exec .resetInputRelease sHeld with | .next t => t.dev.link.queue | _ => []) = [1036, 0, 4, 1] := ⟨rfl, by decide⟩

/-- 1.9: the touch with tip 1 on arm A: corrected coordinates and an empty flag set. -/
theorem test_worked_touch :
    let i : CorrectionInput :=
      { sample := ⟨1234567, 800000, 300250⟩
        mapX := ⟨⟨45, -8, 4, 25⟩, false, false⟩, mapY := ⟨⟨14, 5, -4, 0⟩, false, false⟩, mapZ := ⟨⟨9, 2, -20, -40⟩, false, false⟩
        scaleX := ⟨0, 10500⟩, scaleY := ⟨0, 10500⟩, scaleZ := ⟨0, 10500⟩
        tempX := ⟨some 21350, false, false, false, false⟩, tempY := ⟨some 20600, false, false, false, false⟩
        tempZ := ⟨some 20900, false, false, false, false⟩, offset := ⟨0, -350000, 1200000⟩
        workpieceTemp := ⟨some 22000, false, false, false, false⟩, workpieceAlpha := 11700, datum := ⟨1000000, 400000, 1500000⟩ }
    i.compute.c = ⟨-17, -5, -3⟩ ∧ i.compute.p = ⟨1234495, 450009, 1500237⟩ ∧ i.compute.q = ⟨1234490, 450008, 1500237⟩ ∧
      i.flags false false = Flags.none := by decide

end Sys2Proof.Tests
end

section
/-! PROOFS. The position correction (R11, R14, R17 to R21): what a map and a group give a CORRECT, one equation for each stage of the
correction, and from them the obligations about its terms, its temperatures and its flags. -/

namespace Sys2Proof.Machine

/-! ### What a map and a group give (R11, R14) -/

/-- A map that is not READY takes no part in the correction (R14). -/
theorem MapRecord.use_of_not_ready (m : MapRecord) (u : Int) (h : m.state ≠ .ready) : m.use u = ⟨⟨0, 0, 0, 0⟩, true, false⟩ :=
  if_pos h

section Group
variable {g : Group} {v : Int}

theorem Group.use_of_valid (hs : g.state = .valid) (hv : g.value = some v) : g.use = ⟨some v, false, false, false, g.spread⟩ := by
  simp only [Group.use, hs, hv]

theorem Group.use_of_held (hs : g.state = .held) (hv : g.value = some v) : g.use = ⟨some v, true, false, false, g.spread⟩ := by
  simp only [Group.use, hs, hv]

theorem Group.use_of_lost (hs : g.state = .lost) (hv : g.value = some v) : g.use = ⟨some v, false, true, false, g.spread⟩ := by
  simp only [Group.use, hs, hv]

/-- An EMPTY group gives nothing, whatever its value field holds. -/
theorem Group.use_of_empty (hs : g.state = .empty) : g.use = GroupUse.missing := by
  simp only [Group.use, hs]

end Group

/-- Group 0 names no group. -/
theorem Device.groupUse_zero (d : Device) : d.groupUse 0 = GroupUse.missing := if_pos rfl

theorem Device.groupUse_pos (d : Device) {g : Nat} (h : 1 ≤ g) : d.groupUse g = (d.group g).use :=
  if_neg (Nat.ne_of_gt h)

theorem thermalTerm_none (length : Int) (alpha : Nat) : thermalTerm length alpha none = 0 := rfl

theorem thermalTerm_some (length : Int) (alpha : Nat) (v : Int) :
    thermalTerm length alpha (some v) = -roundDiv (length * alpha * (v - 20000)) 1000000000000 := rfl

/-! ### The stages, each from those before it (R17 to R21) -/

section Stages
variable (i : CorrectionInput)

theorem CorrectionInput.compute_g : i.compute.g = geometricTerm i.mapX.comp i.mapY.comp i.mapZ.comp := rfl

theorem CorrectionInput.compute_a : i.compute.a = abbeTerm i.mapX.comp i.mapY.comp i.mapZ.comp i.offset := rfl

theorem CorrectionInput.compute_c : i.compute.c =
    ⟨thermalTerm (i.sample.x - i.scaleX.r) i.scaleX.alpha i.tempX.temp,
     thermalTerm (i.sample.y - i.scaleY.r) i.scaleY.alpha i.tempY.temp,
     thermalTerm (i.sample.z - i.scaleZ.r) i.scaleZ.alpha i.tempZ.temp⟩ := rfl

theorem CorrectionInput.compute_p : i.compute.p =
    ⟨i.sample.x + i.compute.g.x - i.compute.a.x + i.compute.c.x + i.offset.x,
     i.sample.y + i.compute.g.y - i.compute.a.y + i.compute.c.y + i.offset.y,
     i.sample.z + i.compute.g.z - i.compute.a.z + i.compute.c.z + i.offset.z⟩ := rfl

theorem CorrectionInput.compute_w : i.compute.w =
    ⟨thermalTerm (i.compute.p.x - i.datum.x) i.workpieceAlpha i.workpieceTemp.temp,
     thermalTerm (i.compute.p.y - i.datum.y) i.workpieceAlpha i.workpieceTemp.temp,
     thermalTerm (i.compute.p.z - i.datum.z) i.workpieceAlpha i.workpieceTemp.temp⟩ := rfl

theorem CorrectionInput.compute_exact : i.compute.exact =
    ⟨i.compute.p.x + i.compute.w.x, i.compute.p.y + i.compute.w.y, i.compute.p.z + i.compute.w.z⟩ := rfl

theorem CorrectionInput.compute_q : i.compute.q = saturatePoint i.compute.exact := rfl

end Stages

/-! ### Saturation of the corrected coordinates (R21) -/

theorem saturatePoint_eq (p : Point) : saturatePoint p =
    ⟨max (-2147483648) (min 2147483647 p.x), max (-2147483648) (min 2147483647 p.y), max (-2147483648) (min 2147483647 p.z)⟩ := by
  simp only [saturatePoint, saturate_eq]

/-- A point changes under saturation exactly if one of its coordinates saturates. -/
theorem saturatePoint_ne_iff (p : Point) :
    saturatePoint p ≠ p ↔ (saturates p.x || saturates p.y || saturates p.z) = true := by
  have hsame : saturatePoint p = p ↔ saturate p.x = p.x ∧ saturate p.y = p.y ∧ saturate p.z = p.z :=
    Iff.of_eq (Point.mk.injEq ..)
  simp only [ne_eq, hsame, Bool.or_eq_true, saturates_iff, Decidable.not_and_iff_not_or_not, or_assoc]

/-- SATURATED stands exactly if saturation changed the exact coordinates. -/
theorem CorrectionInput.flags_saturated_iff (i : CorrectionInput) (mm tq : Bool) :
    (i.flags mm tq).saturated = true ↔ i.compute.q ≠ i.compute.exact := by
  rw [i.compute_q]
  exact (saturatePoint_ne_iff i.compute.exact).symm

/-! ### The four groups that a CORRECT consults (R11) -/

/-- What the three scale groups and the workpiece group give. -/
def CorrectionInput.consulted (i : CorrectionInput) : List GroupUse := [i.tempX, i.tempY, i.tempZ, i.workpieceTemp]

/-- A flag joined over the four consultations stands exactly if one of them adds it. -/
theorem CorrectionInput.exists_consulted_iff (i : CorrectionInput) (flag : GroupUse → Bool) :
    (flag i.tempX || flag i.tempY || flag i.tempZ || flag i.workpieceTemp) = true ↔ ∃ g ∈ i.consulted, flag g = true := by
  simp [consulted, or_assoc]

section Flags
variable (i : CorrectionInput) (mm tq : Bool)

theorem CorrectionInput.flags_thermalHeld_iff : (i.flags mm tq).thermalHeld = true ↔ ∃ g ∈ i.consulted, g.held = true :=
  i.exists_consulted_iff GroupUse.held

theorem CorrectionInput.flags_thermalLost_iff : (i.flags mm tq).thermalLost = true ↔ ∃ g ∈ i.consulted, g.lost = true :=
  i.exists_consulted_iff GroupUse.lost

theorem CorrectionInput.flags_thermalAbsent_iff : (i.flags mm tq).thermalAbsent = true ↔ ∃ g ∈ i.consulted, g.absent = true :=
  i.exists_consulted_iff GroupUse.absent

theorem CorrectionInput.flags_spread_iff : (i.flags mm tq).spread = true ↔ ∃ g ∈ i.consulted, g.spread = true :=
  i.exists_consulted_iff GroupUse.spread

end Flags

/-! ### The obligations -/

/-- Settles O17: the equations of stages 2 and 3 at the components that the three maps give, axis by axis. -/
theorem geometricAndAbbeTerms : Obligations.GeometricAndAbbeTerms := by
  intro d a u o x y z t
  have hg : t.g = geometricTerm x y z := CorrectionInput.compute_g _
  have ha : t.a = abbeTerm x y z o := CorrectionInput.compute_a _
  refine ⟨congrArg Point.x hg, congrArg Point.y hg, congrArg Point.z hg,
    congrArg Point.x ha, congrArg Point.y ha, congrArg Point.z ha, fun m v hm => ?_⟩
  rw [m.use_of_not_ready v hm]

/-- Settles O19: the statement's thermal term is the model's for a group with a temperature and for one without; the stages then
follow by their equations, and SATURATED by comparing the exact coordinates with the saturated ones. -/
theorem thermalTermsAndSaturation : Obligations.ThermalTermsAndSaturation := by
  intro d a u o mm tq term x g w i t
  have hterm : ∀ len alpha n, term len alpha n = thermalTerm len alpha (d.groupUse n).temp := by
    intro len alpha n
    simp only [term]
    cases (d.groupUse n).temp with
    | none => exact (thermalTerm_none len alpha).symm
    | some v => exact (thermalTerm_some len alpha v).symm
  simp only [hterm]
  exact ⟨i.compute_c, i.compute_p, i.compute_w, saturatePoint_eq i.compute.exact, i.flags_saturated_iff mm tq⟩

/-- Settles O20: the table of R11, a row for each state of the named group, and the four flags joined over the groups consulted. -/
theorem groupStateChoosesTheTemperature : Obligations.GroupStateChoosesTheTemperature := by
  intro d
  refine ⟨d.groupUse_zero, fun g v hg hv => ?_, fun g hg hs => ?_, fun a u o mm tq => ?_⟩
  · rw [d.groupUse_pos hg]
    exact ⟨fun hs => Group.use_of_valid hs hv, fun hs => Group.use_of_held hs hv, fun hs => Group.use_of_lost hs hv⟩
  · rw [d.groupUse_pos hg]
    exact Group.use_of_empty hs
  · let i := d.correctionInput a u o
    exact ⟨i.flags_thermalHeld_iff mm tq, i.flags_thermalLost_iff mm tq, i.flags_thermalAbsent_iff mm tq,
      i.flags_spread_iff mm tq⟩

end Sys2Proof.Machine
end

section
/-! PROOFS. What every step keeps of the arms (R33, R43, R144, R146, R165, R177, R187, R188, R190): a change of records under a
standing mode is `Arm.Steady`, a change of mode is looked at where it happens, and both keep the two invariants of an arm. -/

namespace Sys2Proof.Machine

/-! ### Arms whose mode stands -/

/-- Nothing of a motion stands: what R144, R146, R165 and R187 ask of an arm outside RUN. -/
structure Arm.AtRest (m : Arm) : Prop where
  wait : m.wait = none
  cycle : m.seq.state.inCycle = false
  lastSample : m.lastSample = none
  exitSet : m.exitSet = []
  silence : m.port.silenceTimer = none

/-- `m'` is `m` with its mode, its phase, its queue and its maps as they were; outside RUN no motion has begun. -/
structure Arm.Steady (m m' : Arm) : Prop where
  answers : m.Answers m'
  maps : m'.maps = m.maps
  rests : m.port.mode ≠ .run → m.AtRest → m'.AtRest

theorem Arm.Steady.refl (m : Arm) : m.Steady m := ⟨.refl m, rfl, fun _ h => h⟩

theorem Arm.Steady.trans {m n k : Arm} (h : m.Steady n) (g : n.Steady k) : m.Steady k :=
  ⟨h.answers.trans g.answers, g.maps.trans h.maps, fun hm hr => g.rests (by rwa [h.answers.mode]) (h.rests hm hr)⟩

theorem Arm.Follows.steady {m m' : Arm} (h : m.Follows m') : m.Steady m' where
  answers := h.answers
  maps := h.maps
  rests _ r :=
    { wait := h.wait.trans r.wait
      cycle := Bool.eq_false_iff.2 (fun hc => absurd (h.cycle hc) (by simp [r.cycle]))
      lastSample := h.lastSample.trans r.lastSample
      exitSet := (h.exits r.lastSample).elim (fun e => e.trans r.exitSet) id
      silence := h.silenceTimer.trans r.silence }

/-- A running arm whose port and maps stand is steady, whatever its motion does. -/
theorem Arm.steady_of_run {m m' : Arm} (h : m.port.mode = .run) (hp : m'.port = m.port) (hm : m'.maps = m.maps) : m.Steady m' := by
  refine ⟨?_, hm, fun hr => absurd h hr⟩
  constructor <;> simp [hp]
  exact fun h1 h2 => ⟨h1, h2⟩

/-- Both arms are steady. -/
def Cell.Steady (c c' : Cell) : Prop := ∀ a, (c.arm a).Steady (c'.arm a)

theorem Cell.Steady.refl (c : Cell) : c.Steady c := fun _ => .refl _

theorem Cell.Steady.trans {c d e : Cell} (h : c.Steady d) (g : d.Steady e) : c.Steady e := fun a => (h a).trans (g a)

theorem Cell.Follows.steady {c c' : Cell} (h : c.Follows c') : c.Steady c' := fun a => (h.arm a).steady

/-- Where the records of the arms stand, both arms are steady. -/
theorem Cell.steady_of_arms {c c' : Cell} (h : ∀ a, c'.arm a = c.arm a) : c.Steady c' := fun a => by rw [h a]; exact .refl _

theorem Cell.steady_modArm (c : Cell) (a : ArmId) (f : Arm → Arm) (h : (c.arm a).Steady (f (c.arm a))) : c.Steady (c.modArm a f) := by
  intro b
  rcases a.eq_or_other b with rfl | rfl
  · simpa using h
  · simpa using Arm.Steady.refl _

theorem Cell.steady_onBays (c : Cell) (f : Bays → Bays) : c.Steady (c.onBays f) := Cell.steady_of_arms (fun a => by simp)

/-! ### The services of requests -/

theorem Cell.steady_setWait_none (c : Cell) (a : ArmId) : c.Steady (c.setWait a none) := by
  rw [Cell.setWait_eq]
  refine c.steady_modArm a _ ⟨⟨rfl, rfl, rfl, fun h1 h2 => ⟨h1, h2⟩, Nat.le_refl _⟩, rfl, fun _ r => ?_⟩
  exact ⟨rfl, r.cycle, r.lastSample, r.exitSet, r.silence⟩

theorem Cell.steady_testWait (c : Cell) (b : ArmId) : c.Steady (c.testWait b) := by
  simp only [Cell.testWait]
  split
  · exact .refl c
  · split
    · exact ((c.steady_onBays _).trans (Cell.steady_setWait_none _ b)).trans (Cell.follows_message _ b _).steady
    · exact .refl c

theorem Cell.steady_freeBays (c : Cell) (a : ArmId) (first last : Nat) : c.Steady (c.freeBays a first last) := by
  simp only [Cell.freeBays]
  split
  · exact c.steady_onBays _
  · exact (c.steady_onBays _).trans (Cell.steady_testWait _ _)

theorem Cell.steady_waitExpiry (c : Cell) (a : ArmId) : c.Steady (c.waitExpiry a) := by
  simp only [Cell.waitExpiry]
  split
  · exact .refl c
  · exact (c.steady_setWait_none a).trans (Cell.follows_message _ a _).steady

theorem Cell.follows_countTouch (c : Cell) (p t : Nat) : c.Follows (c.countTouch p t) := by
  simp only [Cell.countTouch]
  split
  · exact .refl c
  · split
    · exact (c.follows_modProbe p _).trans (Cell.follows_addNotice _ _)
    · exact c.follows_modProbe p _

theorem Cell.follows_countIfTouch (c : Cell) (a : ArmId) (kind tip : Nat) : c.Follows (c.countIfTouch a kind tip) := by
  simp only [Cell.countIfTouch]
  split
  · exact .refl c
  · split
    · exact c.follows_countTouch _ tip
    · exact .refl c

/-- A sample changes the last sample and the exit set of its arm and nothing else (R144, R146). -/
theorem Arm.takeSample_eq (m : Arm) (u : Point) : m.takeSample u = { m with lastSample := some u, exitSet := (m.takeSample u).exitSet } := by
  simp only [Arm.takeSample]; split <;> (try split) <;> rfl

theorem Cell.follows_rackTest (c : Cell) (a : ArmId) (u : Point) : c.Follows (c.rackTest a u) := by
  simp only [Cell.rackTest]
  split
  · exact .refl c
  · exact follows_setStop a _ c

theorem Cell.steady_handSample (c : Cell) (a : ArmId) (u : Point) (h : (c.arm a).port.mode = .run) : c.Steady (c.handSample a u) := by
  refine Cell.Steady.trans (d := c.modArm a (fun m => m.takeSample u)) ?_
    ((Cell.follows_rackTest _ a u).trans (follows_bayTest _ follows_setStop _ a u)).steady
  exact c.steady_modArm a _ (by rw [Arm.takeSample_eq]; exact Arm.steady_of_run h rfl rfl)

/-- A CORRECT is served in RUN alone (R6). -/
theorem Cell.running_of_correctRefusal_none {c : Cell} {a : ArmId} {kind tip : Nat} (h : c.correctRefusal a kind tip = none) :
    (c.arm a).port.mode = .run := by
  refine Classical.byContradiction (fun hm => ?_)
  simp [Cell.correctRefusal, hm] at h

theorem steady_serveCorrect (a : ArmId) (tag kind tip : Nat) (u : Point) (d : Device) :
    d.cell.Steady (serveCorrect a tag kind tip u d).cell := by
  simp only [serveCorrect]
  split
  · exact (d.cell.follows_handOver a _).steady
  · rename_i hr
    have hf := (d.cell.follows_handOver a (d.correctResponse a tag tip u)).trans (Cell.follows_countIfTouch _ a kind tip)
    exact hf.steady.trans (Cell.steady_handSample _ a u ((hf.arm a).mode.trans (Cell.running_of_correctRefusal_none hr)))

/-- A RESERVE is decided in RUN alone (R160). -/
theorem Cell.running_of_reserveRefusal_none {c : Cell} {a : ArmId} {first last wait : Nat}
    (h : c.reserveRefusal a first last wait = none) : (c.arm a).port.mode = .run := by
  refine Classical.byContradiction (fun hm => ?_)
  simp [Cell.reserveRefusal, hm] at h

theorem steady_serveReserve (a : ArmId) (tag first last wait : Nat) (c : Cell) : c.Steady (serveReserve a tag first last wait c) := by
  have hh : ∀ (d : Cell) st x y, d.Steady (d.respond a .reserve tag st x y) := fun d st x y => (d.follows_handOver a _).steady
  simp only [serveReserve]
  split
  · exact hh c _ _ _
  · rename_i hr
    split
    · exact (c.steady_onBays _).trans (hh _ _ _ _)
    · split
      · exact hh c _ _ _
      · split
        · exact hh c _ _ _
        · exact c.steady_modArm a _ (Arm.steady_of_run (Cell.running_of_reserveRefusal_none hr) rfl rfl)

theorem steady_serveRelease (a : ArmId) (tag first last : Nat) (c : Cell) : c.Steady (serveRelease a tag first last c) := by
  have hh : ∀ st x y, c.Steady (c.respond a .release tag st x y) := fun st x y => (c.follows_handOver a _).steady
  simp only [serveRelease]
  split
  · exact hh _ _ _
  · split
    · exact hh _ _ _
    · split
      · exact hh _ _ _
      · exact (hh _ _ _).trans (Cell.steady_freeBays _ a _ _)

/-- A CHANGE_BEGIN is accepted in RUN alone (R123). -/
theorem Cell.running_of_changeRefusal_none {c : Cell} {a : ArmId} {t : Nat} (h : c.changeRefusal a t = none) :
    (c.arm a).port.mode = .run := by
  refine Classical.byContradiction (fun hm => ?_)
  simp [Cell.changeRefusal, hm] at h

theorem Cell.steady_enterStep (c : Cell) (a : ArmId) (step : Step) (p : Plan) (h : (c.arm a).port.mode = .run) :
    c.Steady (c.enterStep a step p) := by
  rw [c.enterStep_eq a step p h]
  refine c.steady_modArm a _ ⟨⟨by simp, by simp, by simp, fun h1 h2 => ?_, ?_⟩, rfl, fun hr => absurd h hr⟩
  · exact ArmPort.handOver_room_kept _ _ h1 h2
  · exact ArmPort.handOver_grows _ _

theorem steady_serveChangeBegin (a : ArmId) (tag t : Nat) (c : Cell) : c.Steady (serveChangeBegin a tag t c) := by
  simp only [serveChangeBegin]
  split
  · exact (c.follows_handOver a _).steady
  · rename_i hr
    have hf := c.follows_handOver a (.shortResponse .changeBegin tag .accepted ((c.changePlan a t).drop.getD 0)
      ((c.changePlan a t).pick.getD 0))
    exact hf.steady.trans (Cell.steady_enterStep _ a _ _ ((hf.arm a).mode.trans (Cell.running_of_changeRefusal_none hr)))

theorem follows_serveReportHit (a : ArmId) (tag : Nat) (c : Cell) : c.Follows (serveReportHit a tag c) := by
  simp only [serveReportHit]
  split
  · exact c.follows_handOver a _
  · split
    · exact c.follows_handOver a _
    · exact c.follows_handOver a _
    · exact ((c.follows_modProbe _ _).trans (Cell.follows_addNotice _ _)).trans (Cell.follows_handOver _ a _)

/-- The service of a request leaves both arms steady. -/
theorem steady_serveRequest (a : ArmId) (r : Request) (d : Device) : d.cell.Steady (serveRequest a r d).cell := by
  cases r with
  | correct tag kind tip u => exact steady_serveCorrect a tag kind tip u d
  | check tag t => exact (d.cell.follows_handOver a _).steady
  | reserve tag first last wait => exact steady_serveReserve a tag first last wait d.cell
  | release tag first last => exact steady_serveRelease a tag first last d.cell
  | changeBegin tag t => exact steady_serveChangeBegin a tag t d.cell
  | changeAbort tag => exact (follows_serveChangeAbort d.cell a tag).steady
  | reportStaged tag => exact (follows_serveReportStaged d.cell a tag).steady
  | reportId tag code => exact (follows_serveReportId d.cell a tag code).steady
  | reportHit tag => exact (follows_serveReportHit a tag d.cell).steady
  | heartbeat tag => exact (d.cell.follows_handOver a _).steady

/-! ### The two invariants of an arm -/

/-- The invariant of an arm's port and motion: rest outside RUN, queues within their room, requests served promptly. -/
def Arm.Sound (m : Arm) : Prop := m.restsOutsideRun ∧ m.withinRoom ∧ m.servesPromptly

/-- `m'` keeps what `m` has of the invariants but the prompt service, which stands only at the end of an event. -/
structure Arm.Stays (m m' : Arm) : Prop where
  loads : m.loadsOnlyOff → m'.loadsOnlyOff
  sound : m.restsOutsideRun → m.withinRoom → m'.restsOutsideRun ∧ m'.withinRoom

/-- `m'` keeps the invariants that `m` has. -/
structure Arm.Keeps (m m' : Arm) : Prop where
  loads : m.loadsOnlyOff → m'.loadsOnlyOff
  sound : m.Sound → m'.Sound

theorem Arm.Stays.refl (m : Arm) : m.Stays m := ⟨id, fun h g => ⟨h, g⟩⟩

theorem Arm.Stays.trans {m n k : Arm} (h : m.Stays n) (g : n.Stays k) : m.Stays k :=
  ⟨fun hl => g.loads (h.loads hl), fun hr hw => g.sound (h.sound hr hw).1 (h.sound hr hw).2⟩

theorem Arm.Keeps.refl (m : Arm) : m.Keeps m := ⟨id, id⟩

theorem Arm.Keeps.trans {m n k : Arm} (h : m.Keeps n) (g : n.Keeps k) : m.Keeps k :=
  ⟨fun hl => g.loads (h.loads hl), fun hs => g.sound (h.sound hs)⟩

theorem Arm.restsOutsideRun.atRest {m : Arm} (h : m.restsOutsideRun) (hm : m.port.mode ≠ .run) : m.AtRest := by
  obtain ⟨hw, hc, hl, he, hs⟩ := h.1 hm
  exact ⟨hw, hc, hl, he, hs⟩

theorem Arm.AtRest.restsOutsideRun {m : Arm} (h : m.AtRest) (hq : m.port.mode = .off → m.port.queue = [])
    (hp : m.port.mode = .starting ↔ m.port.phase ≠ none) : m.restsOutsideRun :=
  ⟨fun _ => ⟨h.wait, h.cycle, h.lastSample, h.exitSet, h.silence⟩, hq, hp⟩

theorem Arm.Answers.servesPromptly {m m' : Arm} (h : m.Answers m') (hm : m.servesPromptly) : m'.servesPromptly := by
  rcases hm with hq | ht
  · exact .inl (h.queue.trans hq)
  · exact .inr (Nat.lt_of_lt_of_le ht h.grows)

theorem Arm.Steady.stays {m m' : Arm} (h : m.Steady m') : m.Stays m' where
  loads hl := by simpa only [Arm.loadsOnlyOff, h.maps, h.answers.mode] using hl
  sound hr hw := by
    obtain ⟨hqueue, htx, hdrop⟩ := hw
    have hroom := h.answers.room htx hdrop
    refine ⟨⟨fun hm => ?_, ?_, ?_⟩, by rw [h.answers.queue]; exact hqueue, hroom.1, hroom.2⟩
    · rw [h.answers.mode] at hm
      have r := h.rests hm (hr.atRest hm)
      exact ⟨r.wait, r.cycle, r.lastSample, r.exitSet, r.silence⟩
    · rw [h.answers.mode, h.answers.queue]; exact hr.2.1
    · rw [h.answers.mode, h.answers.phase]; exact hr.2.2

/-- What stays, with requests served promptly at the end, keeps the invariants. -/
theorem Arm.Stays.keeps {m m' : Arm} (h : m.Stays m') (hp : m.Sound → m'.servesPromptly) : m.Keeps m' :=
  ⟨h.loads, fun hs => ⟨(h.sound hs.1 hs.2.1).1, (h.sound hs.1 hs.2.1).2, hp hs⟩⟩

theorem Arm.Steady.keeps {m m' : Arm} (h : m.Steady m') : m.Keeps m' :=
  h.stays.keeps (fun hs => h.answers.servesPromptly hs.2.2)

/-- Both arms keep the invariants. -/
def Cell.Keeps (c c' : Cell) : Prop := ∀ a, (c.arm a).Keeps (c'.arm a)

theorem Cell.Keeps.refl (c : Cell) : c.Keeps c := fun _ => .refl _

theorem Cell.Keeps.trans {c d e : Cell} (h : c.Keeps d) (g : d.Keeps e) : c.Keeps e := fun a => (h a).trans (g a)

theorem Cell.Steady.keeps {c c' : Cell} (h : c.Steady c') : c.Keeps c' := fun a => (h a).keeps

theorem Cell.Follows.keeps {c c' : Cell} (h : c.Follows c') : c.Keeps c' := h.steady.keeps

theorem Cell.keeps_modArm (c : Cell) (a : ArmId) (f : Arm → Arm) (h : (c.arm a).Keeps (f (c.arm a))) : c.Keeps (c.modArm a f) := by
  intro b
  rcases a.eq_or_other b with rfl | rfl
  · simpa using h
  · simpa using Arm.Keeps.refl _

end Sys2Proof.Machine
end

section
/-! PROOFS. The changes of an arm's mode (R178 to R187), the events that serve requests (R188) and the passing of time keep the
invariants of the arms; and so does every command and every step. -/

namespace Sys2Proof.Machine

/-! ### Changes of mode (R178 to R187) -/

theorem Arm.sound_of_empty {m : Arm} (hr : m.AtRest) (hm : m.port.mode = .starting ↔ m.port.phase ≠ none)
    (hq : m.port.queue = []) (ht : m.port.transmit.length ≤ 16) (hd : m.port.dropped ≤ 255) : m.Sound :=
  ⟨hr.restsOutsideRun (fun _ => hq) hm, ⟨by simp [hq], ht, hd⟩, .inl hq⟩

/-- No map of an arm that is not OFF is LOADING, so while the maps stand no change of mode matters to them. -/
theorem Arm.keeps_of_not_off {m m' : Arm} (hmaps : m'.maps = m.maps) (hm : m.port.mode ≠ .off) (hs : m.Sound → m'.Sound) :
    m.Keeps m' :=
  ⟨fun hl h => absurd (hl (hmaps ▸ h)) hm, hs⟩

theorem Arm.Sound.atRest {m : Arm} (h : m.Sound) (hm : m.port.mode ≠ .run) : m.AtRest := h.1.atRest hm

theorem Arm.Sound.starting {m : Arm} (h : m.Sound) (hp : m.port.phase ≠ none) : m.port.mode = .starting := h.1.2.2.2 hp

/-- A port between two phases of a bring-up: the phase, its timer and what it counts and remembers are no motion. -/
theorem Arm.keeps_phase (m : Arm) (hm : m.Sound → m.port.mode = .starting) (phase : Phase) (attempts : Nat) (tags : Tags)
    (timer : Timer) : m.Keeps { m with port :=
      { m.port with phase := some phase, attempts := attempts, agreeTags := tags, phaseTimer := timer } } := by
  refine ⟨id, fun hs => ⟨?_, hs.2.1, hs.2.2⟩⟩
  have r := hs.atRest (by simp [hm hs])
  exact Arm.AtRest.restsOutsideRun ⟨r.wait, r.cycle, r.lastSample, r.exitSet, r.silence⟩ (by simp [hm hs]) (by simp [hm hs])

/-- A port that goes OFF from STARTING. -/
theorem Arm.keeps_stop (m : Arm) (hm : m.Sound → m.port.mode = .starting) : m.Keeps { m with port := m.port.stop } := by
  refine ⟨fun _ _ => rfl, fun hs => ?_⟩
  have r := hs.atRest (by simp [hm hs])
  refine Arm.sound_of_empty ⟨r.wait, r.cycle, r.lastSample, r.exitSet, r.silence⟩ ?_ rfl ?_ hs.2.1.2.2
  · simp [ArmPort.stop]
  · exact Nat.le_trans (List.length_take_le _ _) (by omega)

theorem Cell.keeps_countAttempt (c : Cell) (a : ArmId) (hm : (c.arm a).Sound → (c.arm a).port.mode = .starting) :
    c.Keeps (c.countAttempt a) := by
  have h1 : c.Keeps (c.modPort a (fun p => { p with
      attempts := (c.arm a).port.attempts + 1, phase := some .listen, phaseTimer := some Config.listenTime })) :=
    c.keeps_modArm a _ (Arm.keeps_phase _ hm _ _ (c.arm a).port.agreeTags _)
  simp only [Cell.countAttempt]
  split
  · exact h1
  · refine (h1.trans (Cell.keeps_modArm _ a _ (Arm.keeps_stop _ (fun hs => hs.starting ?_)))).trans
      (Cell.follows_addNotice _ _).keeps
    simp

theorem Cell.follows_unseat (c : Cell) (a : ArmId) : c.Follows (c.unseat a) := by
  simp only [Cell.unseat]
  split
  · exact .refl c
  · exact (c.follows_dropVacancy a _).trans (Cell.follows_probeOut _ _)

theorem Cell.follows_applyResolution (c : Cell) (a : ArmId) (r : Resolution) : c.Follows (c.applyResolution a r) := by
  have hr : c.Follows (c.applyRecords a r) := by
    cases r with
    | keep | same q => exact .refl c
    | empty | stranger => exact c.follows_unseat a
    | inRack port => exact (c.follows_unseat a).trans (Cell.follows_addNotice _ _)
    | seat p => exact ((c.follows_unseat a).trans (Cell.follows_dropExpectation _ a p)).trans (Cell.follows_placeProbe _ p _)
  exact hr.trans (Cell.follows_modSeq _ a _ (fun h => h))

theorem Cell.keeps_agree (c : Cell) (a : ArmId) (hm : (c.arm a).port.mode = .starting) : c.Keeps (c.agree a) := by
  have hf := c.follows_handOver a (.agree (c.arm a).maps.presented (c.arm a).seq.seated (c.codeOf (c.arm a).seq.seated))
  exact hf.keeps.trans (Cell.keeps_modArm _ a _
    (Arm.keeps_phase _ (fun _ => (hf.arm a).mode.trans hm) .agree _ (c.arm a).maps.presented _))

/-- A HELLO taken in STARTING. -/
theorem Cell.keeps_takeHello (c : Cell) (a : ArmId) (tags : Tags) (code : Nat) (hm : (c.arm a).port.mode = .starting) :
    c.Keeps (c.takeHello a tags code) := by
  have h1 : c.Steady (c.modPort a (fun p => { p with expected := tags, heldCode := code, phaseTimer := none })) :=
    c.steady_modArm a _ ⟨⟨rfl, rfl, rfl, fun h g => ⟨h, g⟩, Nat.le_refl _⟩, rfl,
      fun _ r => ⟨r.wait, r.cycle, r.lastSample, r.exitSet, r.silence⟩⟩
  have hm1 := (h1 a).answers.mode.trans hm
  simp only [Cell.takeHello]
  generalize c.modPort a (fun p => { p with expected := tags, heldCode := code, phaseTimer := none }) = c1 at h1 hm1
  refine h1.keeps.trans ?_
  split
  · have hf := c1.follows_handOver a (.refuse code)
    exact hf.keeps.trans (Cell.keeps_countAttempt _ a (fun _ => (hf.arm a).mode.trans hm1))
  · have hf := c1.follows_applyResolution a (c1.resolution a code)
    exact hf.keeps.trans (Cell.keeps_agree _ a ((hf.arm a).mode.trans hm1))

/-- What leaving RUN leaves of the arm: the maps stand, it is at rest in the new mode and phase, its queue is empty and its transmit
list within its room (R187). -/
theorem Cell.leaveRun_arm (c : Cell) (a : ArmId) (mode : Mode) (phase : Option Phase) :
    let m := (c.leaveRun a mode phase).arm a
    m.maps = (c.arm a).maps ∧ m.AtRest ∧ m.port.mode = mode ∧ m.port.phase = phase ∧ m.port.queue = [] ∧
      m.port.attempts = (c.arm a).port.attempts ∧ m.port.transmit.length ≤ 1 ∧
      ((c.arm a).withinRoom → m.port.dropped ≤ 255) := by
  simp only [Cell.leaveRun]
  generalize hc0 : c.modArm a (fun m => { m with wait := none, port := { m.port with mode := mode, phase := phase } }) = c0
  have hm0 : c0.arm a = { c.arm a with wait := none, port := { (c.arm a).port with mode := mode, phase := phase } } := by
    rw [← hc0]; simp
  have hf := (c0.follows_abort a .link).arm a
  have hcycle := c0.abort_ends a .link
  generalize c0.abort a .link = c1 at hf hcycle
  simp only [Cell.arm_modArm_same]
  refine ⟨?_, ⟨?_, hcycle, rfl, rfl, rfl⟩, ?_, ?_, rfl, ?_, ?_, fun hw => ?_⟩
  · simpa [hm0] using hf.maps
  · simpa [hm0] using hf.wait
  · simpa [ArmPort.discard, hm0] using hf.mode
  · simpa [ArmPort.discard, hm0] using hf.phase
  · simpa [ArmPort.discard, hm0] using hf.attempts
  · exact List.length_take_le _ _
  · exact (hf.room (by simpa [hm0] using hw.2.1) (by simpa [hm0] using hw.2.2)).2

/-- The other arm sees of an arm's leaving RUN what it sees of an abort. -/
theorem Cell.leaveRun_other (c : Cell) (a : ArmId) (mode : Mode) (phase : Option Phase) :
    (c.arm a.other).Follows ((c.leaveRun a mode phase).arm a.other) := by
  simpa [Cell.leaveRun] using ((c.modArm a (fun m => { m with
    wait := none, port := { m.port with mode := mode, phase := phase } })).follows_abort a .link).arm a.other

theorem Cell.keeps_leaveRun (c : Cell) (a : ArmId) (mode : Mode) (phase : Option Phase) (hm : (c.arm a).port.mode = .run)
    (hp : mode = .starting ↔ phase ≠ none) : c.Keeps (c.leaveRun a mode phase) := by
  intro b
  rcases a.eq_or_other b with rfl | rfl
  · obtain ⟨hmaps, hrest, hmode, hphase, hq, -, ht, hd⟩ := c.leaveRun_arm b mode phase
    refine Arm.keeps_of_not_off hmaps (by simp [hm]) (fun hs => ?_)
    exact Arm.sound_of_empty hrest (by rw [hmode, hphase]; exact hp) hq (by omega) (hd hs.2.1)
  · exact (c.leaveRun_other a mode phase).steady.keeps

theorem Cell.keeps_helloReceived (c : Cell) (a : ArmId) (letter : Nat) (tags : Tags) (code : Nat) :
    c.Keeps (c.helloReceived a letter tags code) := by
  simp only [Cell.helloReceived]
  split
  · exact .refl c
  · split
    · exact .refl c
    · rename_i hm
      exact c.keeps_takeHello a tags code hm
    · rename_i hm
      have h1 := c.keeps_leaveRun a .starting (some .listen) hm (by simp)
      have h2 : ((c.leaveRun a .starting (some .listen)).addNotice (.armLink a .restart)).Steady (c.restart a) :=
        Cell.steady_modArm _ a _ ⟨⟨rfl, rfl, rfl, fun h g => ⟨h, g⟩, Nat.le_refl _⟩, rfl,
          fun _ r => ⟨r.wait, r.cycle, r.lastSample, r.exitSet, r.silence⟩⟩
      refine ((h1.trans (Cell.follows_addNotice _ _).keeps).trans h2.keeps).trans (Cell.keeps_takeHello _ a tags code ?_)
      obtain ⟨-, -, hmode, -⟩ := c.leaveRun_arm a .starting (some .listen)
      simpa [hmode] using (h2 a).answers.mode

theorem Cell.keeps_readyReceived (c : Cell) (a : ArmId) : c.Keeps (c.readyReceived a) := by
  simp only [Cell.readyReceived]
  split
  · rename_i h
    refine c.keeps_modArm a _ (Arm.keeps_of_not_off rfl (by simp [show (c.arm a).port.mode = .starting from h.1]) (fun hs => ?_))
    exact ⟨⟨fun hr => absurd rfl hr, fun ho => by simp at ho, by simp⟩, hs.2.1, hs.2.2⟩
  · exact .refl c

theorem Cell.keeps_listenExpiry (c : Cell) (a : ArmId) : c.Keeps (c.listenExpiry a) := by
  simp only [Cell.listenExpiry]
  split
  · rename_i h
    exact c.keeps_countAttempt a (fun hs => hs.starting (by simp [h.1]))
  · exact .refl c

theorem Cell.keeps_agreeExpiry (c : Cell) (a : ArmId) : c.Keeps (c.agreeExpiry a) := by
  simp only [Cell.agreeExpiry]
  split
  · rename_i h
    exact c.keeps_countAttempt a (fun hs => hs.starting (by simp [h.1]))
  · exact .refl c

theorem Cell.keeps_silenceExpiry (c : Cell) (a : ArmId) : c.Keeps (c.silenceExpiry a) := by
  simp only [Cell.silenceExpiry]
  split
  · rename_i h
    exact (c.keeps_leaveRun a .off none (by simp at h; exact h.1) (by simp)).trans (Cell.follows_addNotice _ _).keeps
  · exact .refl c

theorem keeps_serveArmEnable (arm : Nat) (d : Device) : d.cell.Keeps (serveArmEnable arm d).dev.cell := by
  simp only [serveArmEnable]
  split
  · exact .refl _
  · rename_i a _
    split
    · exact .refl _
    · split
      · exact .refl _
      · split
        · exact .refl _
        · rename_i hoff hload _
          have hm : (d.cell.arm a).port.mode = .off := by simpa using hoff
          refine d.cell.keeps_modArm a _ ⟨fun _ h => absurd h hload, fun hs => ?_⟩
          have r := hs.atRest (by simp [hm])
          exact Arm.sound_of_empty ⟨r.wait, r.cycle, r.lastSample, r.exitSet, r.silence⟩ (by simp) (hs.1.2.1 hm) hs.2.1.2.1
            (Nat.zero_le _)

theorem keeps_serveArmDisable (arm : Nat) (d : Device) : d.cell.Keeps (serveArmDisable arm d).dev.cell := by
  simp only [serveArmDisable]
  split
  · exact .refl _
  · rename_i a _
    split
    · exact .refl _
    · rename_i hm
      exact d.cell.keeps_modArm a _ (Arm.keeps_stop _ (fun _ => hm))
    · rename_i hm
      exact d.cell.keeps_leaveRun a .off none hm (by simp)

/-! ### The events that serve requests (R188) -/

/-- Both arms keep all but the prompt service. -/
def Cell.Stays (c c' : Cell) : Prop := ∀ a, (c.arm a).Stays (c'.arm a)

theorem Cell.Stays.refl (c : Cell) : c.Stays c := fun _ => .refl _

theorem Cell.Stays.trans {c d e : Cell} (h : c.Stays d) (g : d.Stays e) : c.Stays e := fun a => (h a).trans (g a)

theorem Cell.Steady.stays {c c' : Cell} (h : c.Steady c') : c.Stays c' := fun a => (h a).stays

theorem Cell.stays_modArm (c : Cell) (a : ArmId) (f : Arm → Arm) (h : (c.arm a).Stays (f (c.arm a))) : c.Stays (c.modArm a f) := by
  intro b
  rcases a.eq_or_other b with rfl | rfl
  · simpa using h
  · simpa using Arm.Stays.refl _

/-- Another request queue and transmit list of an arm, within their room. -/
theorem Arm.stays_lists (m : Arm) (queue : List Request) (transmit : List TxFrame)
    (hq : m.restsOutsideRun → m.withinRoom → (m.port.mode = .off → queue = []) ∧ queue.length ≤ 4 ∧ transmit.length ≤ 16) :
    m.Stays { m with port := { m.port with queue := queue, transmit := transmit } } := by
  refine ⟨id, fun hr hw => ?_⟩
  obtain ⟨hoff, hlen, htx⟩ := hq hr hw
  exact ⟨⟨hr.1, hoff, hr.2.2⟩, hlen, htx, hw.2.2⟩

theorem Cell.stays_popRequest (c : Cell) (a : ArmId) : c.Stays (c.popRequest a) := by
  refine c.stays_modArm a _ (Arm.stays_lists _ _ _ (fun hr hw => ⟨fun hm => by simp [hr.2.1 hm], ?_, hw.2.1⟩))
  simp only [List.length_drop]
  exact Nat.le_trans (Nat.sub_le _ _) hw.1

theorem Cell.stays_frameSent (c : Cell) (a : ArmId) : c.Stays (c.modPort a ArmPort.frameSent) := by
  refine c.stays_modArm a _ (Arm.stays_lists _ _ _ (fun hr hw => ⟨hr.2.1, hw.1, ?_⟩))
  simp only [List.length_drop]
  exact Nat.le_trans (Nat.sub_le _ _) hw.2.1

/-- A request that is heard restarts the silence timer in RUN alone (R186). -/
theorem Cell.steady_heard (c : Cell) (a : ArmId) : c.Steady (c.heard a) := by
  refine c.steady_modArm a _ ?_
  split
  · rename_i h
    exact ⟨⟨rfl, rfl, rfl, fun h1 h2 => ⟨h1, h2⟩, Nat.le_refl _⟩, rfl, fun hr => absurd h hr⟩
  · exact .refl _

theorem Cell.stays_offer (c : Cell) (a : ArmId) (r : Request) (hm : (c.arm a).port.mode ≠ .off) : c.Stays (c.offer a r) := by
  simp only [Cell.offer]
  split
  · rename_i h
    refine c.stays_modArm a _ (Arm.stays_lists _ _ _ (fun _ hw => ⟨fun ho => absurd ho hm, ?_, hw.2.1⟩))
    simp only [Config.requestRoom] at h
    simp; omega
  · exact (c.follows_handOver a _).steady.stays

theorem Device.stays_serveHead (d : Device) (a : ArmId) : d.cell.Stays (d.serveHead a).cell := by
  simp only [Device.serveHead]
  split
  · exact .refl _
  · split
    · exact (d.cell.stays_popRequest a).trans (steady_serveRequest a _ (d.onCell (fun c => c.popRequest a))).stays
    · exact .refl _

theorem Device.stays_serveWaiting (d : Device) (a : ArmId) (n : Nat) : d.cell.Stays (Device.serveWaiting a n d).cell := by
  induction n generalizing d with
  | zero => exact .refl _
  | succ n ih => exact (d.stays_serveHead a).trans (ih _)

/-- After an event that may change the queue and the transmit list of arm `a`, the waiting heads are served: then requests are
served promptly again (R188). -/
theorem Device.keeps_serveWaiting (d e : Device) (a : ArmId) (hs : d.cell.Stays e.cell)
    (ho : (d.cell.arm a.other).Answers (e.cell.arm a.other)) :
    d.cell.Keeps (Device.serveWaiting a Config.requestRoom e).cell := by
  intro b
  refine ((hs b).trans (e.stays_serveWaiting a _ b)).keeps (fun hsound => ?_)
  rcases a.eq_or_other b with rfl | rfl
  · exact e.serveWaiting_prompt b _ ((hs b).sound hsound.1 hsound.2.1).2.1
  · exact (ho.trans (e.serveWaiting_other a _)).servesPromptly hsound.2.2

theorem keeps_requestArrives (a : ArmId) (r : Request) (d : Device) : d.cell.Keeps (requestArrives a r d).cell := by
  simp only [requestArrives]
  split
  · exact .refl _
  · rename_i hm
    have hheard := d.cell.steady_heard a
    have hoff : ((d.cell.heard a).arm a).port.mode ≠ .off := by
      rw [(hheard a).answers.mode]; simpa using hm
    refine d.keeps_serveWaiting _ a (hheard.stays.trans (Cell.stays_offer _ a r hoff)) ?_
    refine (hheard a.other).answers.trans ?_
    simp only [Device.cell_onCell, Cell.offer]
    split
    · simpa using Arm.Answers.refl _
    · exact Cell.answers_handOver _ a _ _

theorem keeps_frameSent (a : ArmId) (d : Device) :
    d.cell.Keeps (Device.serveWaiting a Config.requestRoom (d.onCell (fun c => c.modPort a ArmPort.frameSent))).cell :=
  d.keeps_serveWaiting _ a (d.cell.stays_frameSent a) (by simpa using Arm.Answers.refl _)

/-- A request waits only where none may be served, so a service row finds its queue empty or serves nothing (R188). -/
theorem keeps_serviceEvent (a : ArmId) (r : Request) (d : Device) : d.cell.Keeps (serviceEvent a r d).cell := by
  simp only [serviceEvent]
  split
  · exact .refl _
  · rename_i hm
    split
    · exact ((d.cell.steady_heard a).trans (steady_serveRequest a r (d.onCell (fun c => c.heard a)))).keeps
    · rename_i q _ hq
      split
      · have hmay : (d.cell.arm a).port.mayServe = true := by
          rw [Bool.or_eq_true, not_or] at hm; simpa using hm.2
        intro b
        refine (d.stays_serveHead a b).keeps (fun hsound => ?_)
        rcases a.eq_or_other b with rfl | rfl
        · rcases hsound.2.2 with h | h
          · rw [hq] at h; exact absurd h (by simp)
          · simp [ArmPort.mayServe, Config.serviceLimit] at hmay; omega
        · have := d.serveHead_answers a hmay a.other
          simp only [Cell.popRequest, Cell.modPort, Cell.arm_modArm_other] at this
          exact this.servesPromptly hsound.2.2
      · exact .refl _

end Sys2Proof.Machine
end

section
/-! PROOFS. Every command, every expiry and the passing of time keep the invariants of the arms and of the sensor bus; from that the
obligations about every step (R33, R43, R50, R65, R144, R146, R165, R177, R187, R188, R190). -/

namespace Sys2Proof.Machine

/-- The part keeps the invariants of both arms and of the bus. -/
structure Device.Keeps (d d' : Device) : Prop where
  cell : d.cell.Keeps d'.cell
  bus : d.bus.quiet → d'.bus.quiet

theorem Device.Keeps.refl (d : Device) : d.Keeps d := ⟨.refl _, id⟩

theorem Device.Keeps.trans {d e f : Device} (h : d.Keeps e) (g : e.Keeps f) : d.Keeps f :=
  ⟨h.cell.trans g.cell, fun hq => g.bus (h.bus hq)⟩

theorem Device.keeps_onCell (d : Device) (f : Cell → Cell) (h : d.cell.Keeps (f d.cell)) : d.Keeps (d.onCell f) := ⟨h, id⟩

theorem Device.keeps_onBus (d : Device) (f : Bus → Bus) (h : d.bus.quiet → (f d.bus).quiet) : d.Keeps (d.onBus f) := ⟨.refl _, h⟩

theorem Device.Evaluates.keeps {d d' : Device} (h : d.Evaluates d') : d.Keeps d' :=
  ⟨(Cell.steady_of_arms h.arm).keeps, by rw [h.bus]; exact id⟩

theorem Device.keeps_addNotice (d : Device) (n : Notice) : d.Keeps (d.addNotice n) := (d.evaluates_addNotice n).keeps

/-- Cell link and free-order counter take no part in the invariants. -/
theorem Device.Keeps.of_eq {d e f : Device} (h : d.Keeps e) (hc : f.cell = e.cell) (hb : f.bus = e.bus) : d.Keeps f :=
  ⟨by rw [hc]; exact h.cell, by rw [hb]; exact h.bus⟩

/-! ### The sensor bus (R47 to R67) -/

/-- In RUN nothing is asked of the bus. -/
theorem Bus.quiet_of_run {b : Bus} (h : b.state = .run) : b.quiet := fun hn => absurd h hn

@[simp] theorem Bus.state_chooseNext (b : Bus) : b.chooseNext.state = b.state := by
  simp only [Bus.chooseNext]; split <;> rfl

@[simp] theorem Bus.state_nextCycle (b : Bus) : b.nextCycle.state = b.state := Bus.state_chooseNext _

theorem Bus.quiet_chooseNext {b : Bus} (h : b.state = .run) : b.chooseNext.quiet := Bus.quiet_of_run (b.state_chooseNext.trans h)

/-- While a node is polled the bus runs. -/
theorem Bus.quiet.run_of_phase {b : Bus} (h : b.quiet) (hp : b.phase ≠ .between) : b.state = .run :=
  Decidable.byContradiction (fun hn => hp (h hn).1)

theorem Bus.awaited_run {b : Bus} {address : Nat} (h : b.awaited = some address) : b.state = .run := by
  revert h
  simp only [Bus.awaited]
  split
  · intro _; assumption
  · intro h; exact absurd h (by simp)

/-- A change of the part in whose course the bus runs keeps the invariants where the arms do. -/
theorem Device.keeps_of_run {d d' : Device} (h : d.cell.Keeps d'.cell) (hb : d.bus.quiet → d'.bus.state = .run) : d.Keeps d' :=
  ⟨h, fun hq => Bus.quiet_of_run (hb hq)⟩

theorem Device.pollFailed_records (d : Device) (address : Nat) :
    d.cell.Keeps (d.pollFailed address).cell ∧ (d.pollFailed address).bus.state = d.bus.state := by
  simp only [Device.pollFailed, Device.cell_onBus, Device.bus_onBus, Bus.state_chooseNext]
  split
  · exact ⟨.refl _, rfl⟩
  · split
    · exact ⟨(Cell.follows_addNotice _ _).keeps, rfl⟩
    · exact ⟨.refl _, rfl⟩

theorem Device.pollGood_records (d : Device) (k : Nat) (entries : List Int) :
    d.cell.Keeps (d.pollGood k entries).cell ∧ (d.pollGood k entries).bus.state = d.bus.state := by
  simp only [Device.pollGood, Device.cell_onBus, Device.bus_onBus, Bus.state_chooseNext]
  split
  · exact ⟨(Cell.steady_of_arms (fun a => by rw [Device.arm_deliverAll]; rfl)).keeps, by rw [Device.bus_deliverAll]; rfl⟩
  · exact ⟨.refl _, rfl⟩

theorem Device.attemptMissed_records (d : Device) (address : Nat) :
    d.cell.Keeps (d.attemptMissed address).cell ∧ (d.attemptMissed address).bus.state = d.bus.state := by
  simp only [Device.attemptMissed]
  split
  · exact ⟨.refl _, rfl⟩
  · exact d.pollFailed_records address

theorem Device.keeps_attemptMissed (d : Device) (address : Nat) (h : d.bus.state = .run) : d.Keeps (d.attemptMissed address) :=
  Device.keeps_of_run (d.attemptMissed_records address).1 (fun _ => (d.attemptMissed_records address).2.trans h)

theorem Device.keeps_replyReceived (f : BusFrame) (d : Device) : d.Keeps (d.replyReceived f) := by
  simp only [Device.replyReceived]
  split
  · exact .refl d
  · rename_i address ha
    have hrun := Bus.awaited_run ha
    split
    · exact d.keeps_attemptMissed address hrun
    · split
      · exact .refl d
      · split
        · exact .refl d
        · rename_i k _
          split
          · exact Device.keeps_of_run (d.pollGood_records k _).1 (fun _ => (d.pollGood_records k _).2.trans hrun)
          · exact d.keeps_attemptMissed address hrun

theorem Device.keeps_replyTimeout (d : Device) : d.Keeps d.replyTimeout := by
  simp only [Device.replyTimeout]
  split
  · exact .refl d
  · exact d.keeps_attemptMissed _ (Bus.awaited_run ‹_›)

theorem Device.keeps_pollSent (d : Device) : d.Keeps (d.onBus Bus.pollSent) := by
  refine d.keeps_onBus _ (fun hq => ?_)
  simp only [Bus.pollSent]
  split
  · rename_i h
    exact Bus.quiet_of_run (Decidable.byContradiction (fun hn => by simp [(hq hn).2.2.2.2.1] at h))
  · exact hq

theorem Device.keeps_pollPeriodExpiry (d : Device) : d.Keeps d.pollPeriodExpiry := by
  have h1 : d.Keeps (d.onBus (fun b => { b with periodTimer := some b.pollPeriod })) := d.keeps_onBus _ (fun hq => hq)
  simp only [Device.pollPeriodExpiry]
  split
  · split
    · exact h1.trans (Device.keeps_onBus _ _ (fun _ => Bus.quiet_of_run ((Bus.state_nextCycle _).trans ‹_›)))
    · exact h1.trans (Device.keeps_onBus _ _ (fun _ => Bus.quiet_of_run ‹_›))
    · exact h1.trans (Device.evaluates_evaluate _).keeps
  · exact .refl d

theorem Device.keeps_slotEnd (d : Device) : d.Keeps d.slotEnd := by
  simp only [Device.slotEnd]
  split
  · rename_i hslot
    have hrun : d.bus.quiet → d.bus.state = .run := fun hq =>
      Decidable.byContradiction (fun hn => by simp [(hq hn).2.2.2.2.2.2.1] at hslot)
    have he := Device.evaluates_evaluate
      (d.onBus (fun b => { b with previousSlot := b.presentSlot, presentSlot := [], slotTimer := none }))
    generalize (d.onBus (fun b => { b with previousSlot := b.presentSlot, presentSlot := [], slotTimer := none })).evaluate = e at he
    have hcell : d.cell.Keeps e.cell := (Cell.steady_of_arms he.arm).keeps
    have hstate : e.bus.state = d.bus.state := by rw [he.bus]; rfl
    split
    · exact Device.keeps_of_run hcell (fun hq => (Bus.state_nextCycle _).trans (hstate.trans (hrun hq)))
    · exact Device.keeps_of_run hcell (fun hq => hstate.trans (hrun hq))
  · exact .refl d

@[simp] theorem Bus.state_confirm (b : Bus) (x : Announce) : (b.confirm x).state = b.state := by
  simp only [Bus.confirm]; split <;> (try split) <;> rfl

theorem Device.keeps_announceReceived (checkOk : Bool) (x : Announce) (d : Device) : d.Keeps (d.announceReceived checkOk x) := by
  simp only [Device.announceReceived]
  split
  · rename_i h
    have hrun : d.bus.quiet → d.bus.state = .run := fun hq => hq.run_of_phase (by simp [h.1])
    split
    · exact (d.keeps_onBus _ (fun hq => Bus.quiet_of_run ((Bus.state_confirm _ x).trans (by exact hrun hq)))).trans
        (Device.keeps_addNotice _ _)
    · exact d.keeps_onBus _ (fun hq => Bus.quiet_of_run (hrun hq))
  · exact .refl d

/-- What an abandoned poll or slot leaves is still (R50, R65). -/
theorem Bus.quiet_abandon (b : Bus) (state : BusState) (released : Timer) (driven : Bool) :
    ({ b.abandon with state := state, stuckTimer := none, releasedTimer := released, lineDriven := driven } : Bus).quiet :=
  fun _ => ⟨rfl, rfl, rfl, rfl, rfl, rfl, rfl, rfl⟩

theorem Device.keeps_lineStuck (d : Device) : d.Keeps d.lineStuck := by
  simp only [Device.lineStuck]
  split
  · exact (d.keeps_onBus _ (fun _ => Bus.quiet_abandon _ _ _ _)).trans (Device.keeps_addNotice _ _)
  · exact .refl d

theorem Bus.quiet_lineChange (b : Bus) (driven : Bool) (hq : b.quiet) : (b.lineChange driven).quiet := by
  simp only [Bus.lineChange]
  split
  · exact hq
  · simp only [Bus.watchLine]
    split
    · exact Bus.quiet_of_run ‹_›
    · exact Bus.quiet_of_run ‹_›
    · exact hq
    · exact hq
    · exact hq

theorem Bus.quiet_releasedExpiry (b : Bus) (hq : b.quiet) : b.releasedExpiry.quiet := by
  simp only [Bus.releasedExpiry]
  split
  · exact Bus.quiet_of_run (Bus.state_nextCycle _)
  · exact hq

theorem keeps_serveBusSet (period timeout shortRetries longRetry rejoin : Nat) (d : Device) :
    d.Keeps (serveBusSet period timeout shortRetries longRetry rejoin d).dev := ⟨.refl _, fun hq => hq⟩

theorem keeps_serveNodeAdd (node address channels : Nat) (d : Device) : d.Keeps (serveNodeAdd node address channels d).dev := by
  simp only [serveNodeAdd]
  split
  · exact .refl d
  · split
    · exact .refl d
    · split
      · exact .refl d
      · refine ⟨.refl _, fun hq hn => ?_⟩
        obtain ⟨hphase, hstart, hprev, hpres, hrest⟩ := hq hn
        exact ⟨hphase, hstart, by simp [hprev, withoutAddress], by simp [hpres, withoutAddress], hrest⟩

theorem keeps_serveNodeRemove (node : Nat) (d : Device) : d.Keeps (serveNodeRemove node d).dev := by
  simp only [serveNodeRemove]
  split
  · exact .refl d
  · split
    · exact .refl d
    · split
      · exact .refl d
      · refine ⟨.refl _, fun hq => ?_⟩
        simp only [Device.bus_onBus]
        split
        · rename_i h
          exact Bus.quiet_chooseNext (hq.run_of_phase (by rw [show d.bus.phase = _ from h]; simp))
        · exact hq

theorem keeps_serveBusEnable (d : Device) : d.Keeps (serveBusEnable d).dev := by
  simp only [serveBusEnable]
  split
  · exact .refl d
  · exact ⟨.refl _, fun _ => Bus.quiet_of_run (Bus.state_chooseNext _)⟩

theorem keeps_serveBusDisable (d : Device) : d.Keeps (serveBusDisable d).dev :=
  ⟨.refl _, fun _ => Bus.quiet_abandon d.bus .off none d.bus.lineDriven⟩

theorem keeps_serveBusRecover (d : Device) : d.Keeps (serveBusRecover d).dev := by
  simp only [serveBusRecover]
  split
  · exact .refl d
  · split
    · exact .refl d
    · exact ⟨.refl _, fun _ => Bus.quiet_of_run (Bus.state_nextCycle _)⟩

theorem keeps_serveAnnounceClear (d : Device) : d.Keeps (serveAnnounceClear d).dev := ⟨.refl _, fun hq => hq⟩

end Sys2Proof.Machine
end

section
/-! PROOFS. The commands of the other blocks, the expiries and the steps keep the invariants of the arms and of the sensor bus; the
obligations about every step (R33, R43, R50, R65, R144, R146, R165, R177, R187, R188, R190, R200). -/

namespace Sys2Proof.Machine

/-! ### Commands of the temperature unit (R68 to R87) -/

/-- The channel and group records take no part in the invariants. -/
theorem Device.keeps_evaluate_temp (d : Device) (t : Temperature) : d.Keeps ({ d with temp := t } : Device).evaluate :=
  (Device.Keeps.of_eq (.refl d) rfl rfl : d.Keeps ({ d with temp := t } : Device)).trans (Device.evaluates_evaluate _).keeps

theorem keeps_serveChannelSet (channel node index group window : Nat) (stepLimit : Int) (fine longStale rejectLimit staleTime : Nat)
    (d : Device) :
    d.Keeps (serveChannelSet channel node index group window stepLimit fine longStale rejectLimit staleTime d).dev := by
  simp only [serveChannelSet]
  split
  · iterate 4 (split; exact .refl d)
    exact d.keeps_evaluate_temp _
  · exact .refl d

theorem keeps_serveChannelRemove (channel : Nat) (d : Device) : d.Keeps (serveChannelRemove channel d).dev := by
  simp only [serveChannelRemove]
  iterate 2 (split; exact .refl d)
  exact d.keeps_evaluate_temp _

theorem keeps_serveChannelClear (channel : Nat) (d : Device) : d.Keeps (serveChannelClear channel d).dev := by
  simp only [serveChannelClear]
  iterate 2 (split; exact .refl d)
  exact d.keeps_evaluate_temp _

theorem keeps_serveGroupSet (group hold : Nat) (spread : Int) (d : Device) : d.Keeps (serveGroupSet group hold spread d).dev := by
  simp only [serveGroupSet]
  split
  · exact .refl d
  · exact .of_eq (.refl d) rfl rfl

/-- Settings and group assignments take no part in the invariants. -/
theorem Arm.steady_assigned (m : Arm) (s : ArmSettings) (configured : Bool) (g : ArmGroups) :
    m.Steady { m with settings := s, configured := configured, groups := g } :=
  ⟨⟨rfl, rfl, rfl, fun h1 h2 => ⟨h1, h2⟩, Nat.le_refl _⟩, rfl, fun _ r => ⟨r.wait, r.cycle, r.lastSample, r.exitSet, r.silence⟩⟩

theorem keeps_serveTempSet (drift : Int) (groupsA groupsB : ArmGroups) (d : Device) :
    d.Keeps (serveTempSet drift groupsA groupsB d).dev := by
  simp only [serveTempSet]
  iterate 2 (split; exact .refl d)
  have hgroups : ∀ (c : Cell) (a : ArmId) (g : ArmGroups), c.Keeps (c.modArm a (fun m => { m with groups := g })) :=
    fun c a g => c.keeps_modArm a _ (Arm.steady_assigned _ _ _ g).keeps
  exact ⟨(hgroups d.cell .armA groupsA).trans (hgroups _ .armB groupsB), id⟩

/-! ### Commands of the maps (R33 to R43) -/

/-- While an arm is OFF its maps may take any value. -/
theorem Device.keeps_setMap (d : Device) (a : ArmId) (k : Axis) (m : MapRecord) (h : (d.cell.arm a).port.mode = .off) :
    d.Keeps (d.setMap a k m) :=
  ⟨d.cell.keeps_modArm a _ ⟨fun _ _ => h, fun hs => hs⟩, id⟩

theorem Cell.off_of_isOff {c : Cell} {a : ArmId} (h : ¬ (!c.isOff a) = true) : (c.arm a).port.mode = .off := by simpa using h

theorem keeps_serveMapOpen (arm axis tag : Nat) (origin spacing : Int) (count : Nat) (d : Device) :
    d.Keeps (serveMapOpen arm axis tag origin spacing count d).dev := by
  unfold serveMapOpen
  split
  · exact .refl d
  · split
    · exact .refl d
    · rename_i hoff
      iterate 2 (split; exact .refl d)
      exact d.keeps_setMap _ _ _ (Cell.off_of_isOff hoff)

theorem keeps_serveMapNodes (arm axis first : Nat) (entries : List MapNode) (d : Device) :
    d.Keeps (serveMapNodes arm axis first entries d).dev := by
  unfold serveMapNodes
  split
  · exact .refl d
  · dsimp only
    split
    · exact .refl d
    · rename_i hoff
      iterate 3 (split; exact .refl d)
      exact d.keeps_setMap _ _ _ (Cell.off_of_isOff hoff)

theorem keeps_serveMapClose (arm axis : Nat) (d : Device) : d.Keeps (serveMapClose arm axis d).dev := by
  unfold serveMapClose
  split
  · exact .refl d
  · dsimp only
    split
    · exact .refl d
    · rename_i hoff
      iterate 2 (split; exact .refl d)
      exact d.keeps_setMap _ _ _ (Cell.off_of_isOff hoff)

theorem keeps_serveMapClear (arm axis : Nat) (d : Device) : d.Keeps (serveMapClear arm axis d).dev := by
  unfold serveMapClear
  split
  · exact .refl d
  · split
    · exact .refl d
    · exact d.keeps_setMap _ _ _ (Cell.off_of_isOff ‹_›)

/-! ### Commands of the probes, the racks, the bays and the stop latches -/

/-- A part whose cell follows keeps the invariants. -/
theorem Device.keeps_follows {d : Device} {c : Cell} (h : d.cell.Follows c) : d.Keeps { d with cell := c } := ⟨h.keeps, id⟩

theorem keeps_serveArmConfig (arm : Nat) (settings : ArmSettings) (d : Device) : d.Keeps (serveArmConfig arm settings d).dev := by
  unfold serveArmConfig
  split
  · exact .refl d
  · rename_i a _
    dsimp only
    iterate 4 (split; exact .refl d)
    exact ⟨d.cell.keeps_modArm a _ (Arm.steady_assigned _ _ _ _).keeps, id⟩

theorem keeps_servePortConfig (arm count : Nat) (boxes : List Box) (params : PortParams) (d : Device) :
    d.Keeps (servePortConfig arm count boxes params d).dev := by
  unfold servePortConfig
  split
  · exact .refl d
  · rename_i a _
    dsimp only
    iterate 3 (split; exact .refl d)
    exact Device.keeps_follows (d.cell.follows_modRack a _)

theorem keeps_serveBayConfig (count : Nat) (origin width : Int) (d : Device) :
    d.Keeps (serveBayConfig count origin width d).dev := by
  simp only [serveBayConfig]
  iterate 4 (split; exact .refl d)
  exact ⟨(d.cell.steady_onBays _).keeps, id⟩

theorem keeps_serveWorkpieceSet (group alpha : Nat) (datumA datumB : Point) (d : Device) :
    d.Keeps (serveWorkpieceSet group alpha datumA datumB d).dev := by
  simp only [serveWorkpieceSet]
  split
  · exact .refl d
  · exact .of_eq (.refl d) rfl rfl

theorem keeps_serveProbeDefine (probe code home count touchLimit : Nat) (tips : List TipGeometry) (d : Device) :
    d.Keeps (serveProbeDefine probe code home count touchLimit tips d).dev := by
  unfold serveProbeDefine
  split
  · exact .refl d
  · iterate 3 (split; exact .refl d)
    exact Device.keeps_follows (d.cell.follows_modProbe probe _)

theorem keeps_serveTipQualify (probe tip : Nat) (offset : Point) (radius : Int) (d : Device) :
    d.Keeps (serveTipQualify probe tip offset radius d).dev := by
  unfold serveTipQualify
  dsimp only
  iterate 6 (split; exact .refl d)
  split
  · exact .refl d
  · split
    · exact .refl d
    · exact Device.keeps_follows ((d.cell.follows_modProbe probe _).trans (Cell.follows_retest _ _))

theorem keeps_serveProbeRetire (probe : Nat) (d : Device) : d.Keeps (serveProbeRetire probe d).dev := by
  simp only [serveProbeRetire]
  iterate 3 (split; exact .refl d)
  split
  · exact Device.keeps_follows (d.cell.follows_freeProbe probe)
  · exact Device.keeps_follows (d.cell.follows_modProbe probe _)

theorem keeps_serveExpect (arm port probe : Nat) (d : Device) : d.Keeps (serveExpect arm port probe d).dev := by
  unfold serveExpect
  split
  · exact .refl d
  · rename_i a _
    split
    · exact .refl d
    · split
      · exact .refl d
      · split
        · split
          · exact Device.keeps_follows (d.cell.follows_setPortState a _ _)
          · exact .refl d
        · split
          · exact .refl d
          · exact Device.keeps_follows ((d.cell.follows_dropExpectation a probe).trans (Cell.follows_setPortState _ a _ _))

theorem keeps_servePortDisable (arm port : Nat) (d : Device) : d.Keeps (servePortDisable arm port d).dev := by
  unfold servePortDisable
  split
  · exact .refl d
  · rename_i a _
    split
    · exact .refl d
    · split
      · exact Device.keeps_follows (d.cell.follows_setPortState a _ _)
      · exact .refl d

theorem keeps_servePortEnable (arm port : Nat) (d : Device) : d.Keeps (servePortEnable arm port d).dev := by
  unfold servePortEnable
  split
  · exact .refl d
  · rename_i a _
    split
    · exact .refl d
    · split
      · exact Device.keeps_follows (d.cell.follows_setPortState a _ _)
      · exact .refl d

/-- A stop latch takes no part in the invariants. -/
theorem Arm.steady_stop (m : Arm) (stop : Option StopCause) : m.Steady { m with stop := stop } :=
  ⟨⟨rfl, rfl, rfl, fun h1 h2 => ⟨h1, h2⟩, Nat.le_refl _⟩, rfl, fun _ r => ⟨r.wait, r.cycle, r.lastSample, r.exitSet, r.silence⟩⟩

theorem keeps_serveStopRelease (arm : Nat) (d : Device) : d.Keeps (serveStopRelease arm d).dev := by
  unfold serveStopRelease
  split
  · exact .refl d
  · rename_i a _
    split
    · exact .refl d
    · split
      · exact .refl d
      · split
        · exact .refl d
        · exact ⟨d.cell.keeps_modArm a _ (Arm.steady_stop _ _).keeps, id⟩

theorem keeps_serveBayClear (arm : Nat) (d : Device) : d.Keeps (serveBayClear arm d).dev := by
  unfold serveBayClear
  split
  · exact .refl d
  · rename_i a _
    split
    · exact .refl d
    · exact ⟨(d.cell.steady_freeBays a _ _).keeps, id⟩

theorem keeps_serveChangeAbortCell (arm : Nat) (d : Device) : d.Keeps (serveChangeAbortCell arm d).dev := by
  unfold serveChangeAbortCell
  split
  · exact .refl d
  · rename_i a _
    split
    · exact Device.keeps_follows (d.cell.follows_abort a _)
    · exact .refl d

theorem keeps_serveChangeResolve (arm seated drop pick : Nat) (d : Device) :
    d.Keeps (serveChangeResolve arm seated drop pick d).dev := by
  unfold serveChangeResolve
  split
  · exact .refl d
  · rename_i a _
    split
    · exact .refl d
    · split
      · exact .refl d
      · exact Device.keeps_follows (Cell.follows_resolveChange d.cell a _ _ _ _)

theorem keeps_serveReadNotices (clear : Nat) (d : Device) : d.Keeps (serveReadNotices clear d).dev := by
  unfold serveReadNotices
  split
  · exact .refl d
  · exact .refl d
  · exact ⟨(Cell.steady_of_arms (fun a => by cases a <;> rfl)).keeps, id⟩

/-! ### Commands that read (R195) -/

theorem serveReadProbe_dev (probe : Nat) (d : Device) : (serveReadProbe probe d).dev = d := by
  simp only [serveReadProbe]; split <;> rfl

theorem serveReadPort_dev (arm port : Nat) (d : Device) : (serveReadPort arm port d).dev = d := by
  simp only [serveReadPort]
  split
  · rfl
  · split
    · rfl
    · split <;> rfl

theorem serveReadNode_dev (node : Nat) (d : Device) : (serveReadNode node d).dev = d := by
  simp only [serveReadNode]
  split
  · rfl
  · split <;> rfl

theorem serveReadChannel_dev (channel : Nat) (d : Device) : (serveReadChannel channel d).dev = d := by
  simp only [serveReadChannel]; split <;> rfl

theorem serveReadGroup_dev (group : Nat) (d : Device) : (serveReadGroup group d).dev = d := by
  simp only [serveReadGroup]
  split
  · rfl
  · split <;> rfl

theorem serveReadArm_dev (arm : Nat) (d : Device) : (serveReadArm arm d).dev = d := by
  simp only [serveReadArm]; split <;> rfl

theorem serveReadMap_dev (arm axis first count : Nat) (d : Device) : (serveReadMap arm axis first count d).dev = d := by
  simp only [serveReadMap]
  split
  · rfl
  · split <;> rfl

theorem Device.keeps_of_dev_eq {d : Device} {r : Served} (h : r.dev = d) : d.Keeps r.dev := by rw [h]; exact .refl d

/-! ### Frames, reset and time -/

/-- A part after reset: nothing moves, nothing is loaded, nothing is asked of the bus (R200). -/
theorem Arm.reset_loadsOnlyOff (lines : Table PortLevels 10) : (Arm.reset lines).loadsOnlyOff := fun _ => rfl

theorem Arm.reset_sound (lines : Table PortLevels 10) : (Arm.reset lines).Sound :=
  Arm.sound_of_empty ⟨rfl, rfl, rfl, rfl, rfl⟩ ⟨fun h => (nomatch h), fun h => absurd rfl h⟩ rfl (Nat.zero_le _) (Nat.zero_le _)

theorem Bus.reset_quiet (lineDriven : Bool) : (Bus.reset lineDriven).quiet := fun _ => ⟨rfl, rfl, rfl, rfl, rfl, rfl, rfl, rfl⟩

theorem Device.reset_arm (source : ResetSource) (pins : Pins) (freeCount : Nat) (a : ArmId) :
    ∃ lines, (Device.reset source pins freeCount).cell.arm a = Arm.reset lines := by
  cases a
  · exact ⟨pins.linesA, rfl⟩
  · exact ⟨pins.linesB, rfl⟩

theorem Device.keeps_resetBy (d : Device) (source : ResetSource) : d.Keeps (d.resetBy source) := by
  refine ⟨fun a => ?_, fun _ => Bus.reset_quiet _⟩
  obtain ⟨lines, h⟩ := Device.reset_arm source d.pins d.freeCount a
  rw [show (d.resetBy source).cell.arm a = Arm.reset lines from h]
  exact ⟨fun _ => Arm.reset_loadsOnlyOff lines, fun _ => Arm.reset_sound lines⟩

theorem Device.keeps_resetCommand (d : Device) : d.Keeps d.resetCommand := by
  simp only [Device.resetCommand]
  split
  · exact Device.Keeps.trans (Device.Keeps.of_eq (.refl d) rfl rfl) (Device.keeps_resetBy _ _)
  · exact .of_eq (.refl d) rfl rfl

theorem Device.keeps_powerOn (d : Device) : d.Keeps d.powerOn := .of_eq (d.keeps_resetBy .power) rfl rfl

theorem Device.keeps_assertReset (d : Device) : d.Keeps d.assertReset := .of_eq (d.keeps_resetBy .input) rfl rfl

theorem Device.keeps_releaseReset (d : Device) : d.Keeps d.releaseReset := by
  simp only [Device.releaseReset]
  split
  · exact d.keeps_resetBy .input
  · exact .refl d

theorem Device.keeps_frameError (reason : FrameReason) (code words : Nat) (d : Device) : d.Keeps (d.frameError reason code words) :=
  .of_eq (d.keeps_addNotice _) rfl rfl

/-- A command keeps the invariants where its service does; the cell link takes no part in them (R193, R194). -/
theorem Device.keeps_command (d : Device) (code : Word) (words : Nat) (serve : Device → Served)
    (h : ∀ e : Device, e.Keeps (serve e).dev) : d.Keeps (d.command code words serve) := by
  simp only [Device.command]
  split
  · have hclock : d.Keeps { d with link := d.link.clockOut words } := .of_eq (.refl d) rfl rfl
    exact hclock.trans (Device.Keeps.of_eq (h _) rfl rfl)
  · exact .of_eq (.refl d) rfl rfl

theorem Arm.keeps_elapse (m : Arm) : m.Keeps m.elapse := by
  have hs : m.Steady m.elapse :=
    ⟨⟨rfl, rfl, rfl, fun h1 h2 => ⟨h1, h2⟩, Nat.le_refl _⟩, rfl, fun _ r =>
      ⟨by simp [Arm.elapse, r.wait], r.cycle, r.lastSample, r.exitSet, by simp [Arm.elapse, ArmPort.elapse, r.silence, Timer.elapse]⟩⟩
  exact hs.keeps

theorem Bus.quiet_elapse (b : Bus) (h : b.quiet) : b.elapse.quiet := by
  intro hn
  obtain ⟨hphase, hstart, hprev, hpres, hsend, hreply, hslot, hstuck⟩ := h hn
  exact ⟨hphase, hstart, hprev, hpres, hsend, by simp [Bus.elapse, hreply, Timer.elapse],
    by simp [Bus.elapse, hslot, Timer.elapse], by simp [Bus.elapse, hstuck, Timer.elapse]⟩

theorem Device.keeps_elapse (d : Device) : d.Keeps d.elapse :=
  ⟨fun a => by rw [Device.arm_elapse]; exact Arm.keeps_elapse _, d.bus.quiet_elapse⟩

theorem Device.keeps_staleExpiry (k : Nat) (d : Device) : d.Keeps (d.staleExpiry k) := by
  simp only [Device.staleExpiry]
  split
  · exact .of_eq (.refl d) rfl rfl
  · exact .refl d

theorem Device.keeps_holdExpiry (g : Nat) (d : Device) : d.Keeps (d.holdExpiry g) := by
  simp only [Device.holdExpiry]
  split
  · split
    · have hgroup : ∀ x, d.Keeps (d.setGroup g x) := fun x => .of_eq (.refl d) rfl rfl
      exact (hgroup _).trans ((Device.keeps_addNotice _ _).trans (Device.evaluates_signal _ _).keeps)
    · exact .of_eq (.refl d) rfl rfl
  · exact .refl d

/-- Every expiry keeps the invariants. -/
theorem Device.keeps_expire (d : Device) (t : TimerId) : d.Keeps (d.expire t) := by
  cases t with
  | attention => exact .of_eq (.refl d) rfl rfl
  | pollPeriod => exact d.keeps_pollPeriodExpiry
  | released => exact d.keeps_onBus _ d.bus.quiet_releasedExpiry
  | reply => exact d.keeps_replyTimeout
  | slot => exact d.keeps_slotEnd
  | stuck => exact d.keeps_lineStuck
  | stale k => exact d.keeps_staleExpiry k
  | hold g => exact d.keeps_holdExpiry g
  | phase a => exact ⟨(d.cell.keeps_listenExpiry a).trans (Cell.keeps_agreeExpiry _ a), id⟩
  | silence a => exact ⟨d.cell.keeps_silenceExpiry a, id⟩
  | wait a => exact ⟨(d.cell.steady_waitExpiry a).keeps, id⟩
  | step a => exact Device.keeps_follows (Cell.follows_stepTimerExpiry _ _)
  | engage a => exact Device.keeps_follows (Cell.follows_engageTimerExpiry _ _)
  | mask a => exact Device.keeps_follows (Cell.follows_maskEnd _ _)
  | filter a k line => exact Device.keeps_follows (Cell.follows_filterExpiry _ _ _ _)

theorem Device.keeps_fire (d : Device) (t : TimerId) : d.Keeps (d.fire t) := by
  simp only [Device.fire]
  split
  · exact d.keeps_expire t
  · exact .refl d

theorem Device.keeps_foldl_fire (l : List TimerId) (d : Device) : d.Keeps (l.foldl Device.fire d) := by
  induction l generalizing d with
  | nil => exact .refl d
  | cons t rest ih => exact (d.keeps_fire t).trans (ih _)

theorem Device.keeps_tick (d : Device) : d.Keeps d.tick := by
  rw [Device.tick_eq]
  refine Device.Keeps.trans ?_ (Device.keeps_foldl_fire _ _)
  split
  · exact d.keeps_elapse
  · exact .of_eq d.keeps_elapse rfl rfl

theorem Device.keeps_idle (d : Device) : d.Keeps d.idle := by
  simp only [Device.idle]
  split
  · exact .refl d
  · exact d.keeps_tick

/-! ### Steps -/

/-- The outcome is a state whose part keeps the invariants. -/
def State.OutcomeKeeps (s : State) (o : Host.Outcome State Fault Refusal) : Prop := ∃ d, o = .next { s with dev := d } ∧ s.dev.Keeps d

theorem State.event_keeps (s : State) (f : Device → Device) (h : s.dev.Keeps (f s.dev)) : s.OutcomeKeeps (s.event f) := by
  refine ⟨_, rfl, ?_⟩
  simp only [Device.live]
  split
  · exact .refl _
  · exact h

theorem State.command_keeps (s : State) (code : Word) (words : Nat) (serve : Device → Served)
    (h : ∀ e : Device, e.Keeps (serve e).dev) : s.OutcomeKeeps (s.command code words serve) :=
  s.event_keeps _ (s.dev.keeps_command code words serve h)

theorem State.event_keeps_follows (s : State) (f : Cell → Cell) (h : s.dev.cell.Follows (f s.dev.cell)) :
    s.OutcomeKeeps (s.event (fun d => d.onCell f)) :=
  s.event_keeps _ (Device.keeps_follows h)

theorem State.event_keeps_cell (s : State) (f : Cell → Cell) (h : s.dev.cell.Keeps (f s.dev.cell)) :
    s.OutcomeKeeps (s.event (fun d => d.onCell f)) :=
  s.event_keeps _ ⟨h, id⟩

end Sys2Proof.Machine
end

section
/-! PROOFS. Every step keeps the invariants of the arms and of the bus (R33, R43, R50, R65, R144, R146, R165, R177, R187, R188, R190),
and they hold after power-on: O16, O32, O59 and O60. -/

namespace Sys2Proof.Machine

/-! ### Requests leave the bus alone -/

@[simp] theorem bus_serveRequest (a : ArmId) (r : Request) (d : Device) : (serveRequest a r d).bus = d.bus := by
  cases r with
  | correct tag kind tip u => simp only [serveRequest, serveCorrect]; split <;> rfl
  | check | reserve | release | changeBegin | changeAbort | reportStaged | reportId | reportHit | heartbeat => rfl

@[simp] theorem Device.bus_serveHead (d : Device) (a : ArmId) : (d.serveHead a).bus = d.bus := by
  simp only [Device.serveHead]
  split
  · rfl
  · split
    · exact bus_serveRequest _ _ _
    · rfl

@[simp] theorem Device.bus_serveWaiting (a : ArmId) (n : Nat) (d : Device) : (Device.serveWaiting a n d).bus = d.bus := by
  induction n generalizing d with
  | zero => rfl
  | succ n ih => exact (ih _).trans (d.bus_serveHead a)

theorem bus_requestArrives (a : ArmId) (r : Request) (d : Device) : (requestArrives a r d).bus = d.bus := by
  simp only [requestArrives]
  split
  · rfl
  · exact Device.bus_serveWaiting _ _ _

theorem bus_serviceEvent (a : ArmId) (r : Request) (d : Device) : (serviceEvent a r d).bus = d.bus := by
  simp only [serviceEvent]
  split
  · rfl
  · split
    · exact bus_serveRequest _ _ _
    · split
      · exact d.bus_serveHead a
      · rfl

theorem bus_serveArmEnable (arm : Nat) (d : Device) : (serveArmEnable arm d).dev.bus = d.bus := by
  simp only [serveArmEnable]
  split
  · rfl
  · iterate 3 (split; rfl)
    rfl

theorem bus_serveArmDisable (arm : Nat) (d : Device) : (serveArmDisable arm d).dev.bus = d.bus := by
  simp only [serveArmDisable]
  split
  · rfl
  · split <;> rfl

/-- Where the bus stands, what the cell keeps is kept. -/
theorem Device.Keeps.of_cell {d d' : Device} (h : d.cell.Keeps d'.cell) (hb : d'.bus = d.bus) : d.Keeps d' :=
  ⟨h, by rw [hb]; exact id⟩

theorem State.serviceEvent_keeps (s : State) (a : ArmId) (r : Request) : s.OutcomeKeeps (s.event (serviceEvent a r)) :=
  s.event_keeps _ (.of_cell (keeps_serviceEvent a r s.dev) (bus_serviceEvent a r s.dev))

/-- Every command of the table keeps the invariants, whether the part is held in reset or not. -/
theorem exec_keeps (c : Instr) (s : State) : s.OutcomeKeeps (exec c s) := by
  cases c with
  | armConfig arm settings => exact s.command_keeps _ _ _ (keeps_serveArmConfig arm settings)
  | portConfig arm count boxes params => exact s.command_keeps _ _ _ (keeps_servePortConfig arm count boxes params)
  | bayConfig count origin width => exact s.command_keeps _ _ _ (keeps_serveBayConfig count origin width)
  | workpieceSet group alpha datumA datumB => exact s.command_keeps _ _ _ (keeps_serveWorkpieceSet group alpha datumA datumB)
  | busSet period timeout short long rejoin => exact s.command_keeps _ _ _ (keeps_serveBusSet period timeout short long rejoin)
  | nodeAdd node address channels => exact s.command_keeps _ _ _ (keeps_serveNodeAdd node address channels)
  | nodeRemove node => exact s.command_keeps _ _ _ (keeps_serveNodeRemove node)
  | channelSet channel node index group window stepLimit fine longStale rejectLimit staleTime =>
    exact s.command_keeps _ _ _ (keeps_serveChannelSet channel node index group window stepLimit fine longStale rejectLimit staleTime)
  | channelRemove channel => exact s.command_keeps _ _ _ (keeps_serveChannelRemove channel)
  | groupSet group hold spread => exact s.command_keeps _ _ _ (keeps_serveGroupSet group hold spread)
  | tempSet drift groupsA groupsB => exact s.command_keeps _ _ _ (keeps_serveTempSet drift groupsA groupsB)
  | mapOpen arm axis tag origin spacing count => exact s.command_keeps _ _ _ (keeps_serveMapOpen arm axis tag origin spacing count)
  | mapNodes arm axis first entries => exact s.command_keeps _ _ _ (keeps_serveMapNodes arm axis first entries)
  | mapClose arm axis => exact s.command_keeps _ _ _ (keeps_serveMapClose arm axis)
  | mapClear arm axis => exact s.command_keeps _ _ _ (keeps_serveMapClear arm axis)
  | probeDefine probe code home count touchLimit tips =>
    exact s.command_keeps _ _ _ (keeps_serveProbeDefine probe code home count touchLimit tips)
  | tipQualify probe tip offset radius => exact s.command_keeps _ _ _ (keeps_serveTipQualify probe tip offset radius)
  | probeRetire probe => exact s.command_keeps _ _ _ (keeps_serveProbeRetire probe)
  | expect arm port probe => exact s.command_keeps _ _ _ (keeps_serveExpect arm port probe)
  | portDisable arm port => exact s.command_keeps _ _ _ (keeps_servePortDisable arm port)
  | portEnable arm port => exact s.command_keeps _ _ _ (keeps_servePortEnable arm port)
  | armEnable arm => exact s.command_keeps _ _ _ (fun d => .of_cell (keeps_serveArmEnable arm d) (bus_serveArmEnable arm d))
  | armDisable arm => exact s.command_keeps _ _ _ (fun d => .of_cell (keeps_serveArmDisable arm d) (bus_serveArmDisable arm d))
  | busEnable => exact s.command_keeps _ _ _ keeps_serveBusEnable
  | busDisable => exact s.command_keeps _ _ _ keeps_serveBusDisable
  | busRecover => exact s.command_keeps _ _ _ keeps_serveBusRecover
  | channelClear channel => exact s.command_keeps _ _ _ (keeps_serveChannelClear channel)
  | stopRelease arm => exact s.command_keeps _ _ _ (keeps_serveStopRelease arm)
  | changeAbortCell arm => exact s.command_keeps _ _ _ (keeps_serveChangeAbortCell arm)
  | changeResolve arm seated drop pick => exact s.command_keeps _ _ _ (keeps_serveChangeResolve arm seated drop pick)
  | bayClear arm => exact s.command_keeps _ _ _ (keeps_serveBayClear arm)
  | announceClear => exact s.command_keeps _ _ _ keeps_serveAnnounceClear
  | reset => exact s.event_keeps _ s.dev.keeps_resetCommand
  | readProbe probe => exact s.command_keeps _ _ _ (fun d => Device.keeps_of_dev_eq (serveReadProbe_dev probe d))
  | readPort arm port => exact s.command_keeps _ _ _ (fun d => Device.keeps_of_dev_eq (serveReadPort_dev arm port d))
  | readNode node => exact s.command_keeps _ _ _ (fun d => Device.keeps_of_dev_eq (serveReadNode_dev node d))
  | readAnnounce => exact s.command_keeps _ _ _ (fun d => .refl d)
  | readChannel channel => exact s.command_keeps _ _ _ (fun d => Device.keeps_of_dev_eq (serveReadChannel_dev channel d))
  | readGroup group => exact s.command_keeps _ _ _ (fun d => Device.keeps_of_dev_eq (serveReadGroup_dev group d))
  | readBays => exact s.command_keeps _ _ _ (fun d => .refl d)
  | readArm arm => exact s.command_keeps _ _ _ (fun d => Device.keeps_of_dev_eq (serveReadArm_dev arm d))
  | readMap arm axis first count =>
    exact s.command_keeps _ _ _ (fun d => Device.keeps_of_dev_eq (serveReadMap_dev arm axis first count d))
  | readNotices clear => exact s.command_keeps _ _ _ (keeps_serveReadNotices clear)
  | readId => exact s.command_keeps _ _ _ (fun d => .refl d)
  | readFrame words => exact s.event_keeps _ (.of_eq (.refl _) rfl rfl)
  | cellFrameError reason code words => exact s.event_keeps _ (s.dev.keeps_frameError reason code words)
  | powerOn => exact ⟨_, rfl, s.dev.keeps_powerOn⟩
  | resetInputAssert => exact ⟨_, rfl, s.dev.keeps_assertReset⟩
  | resetInputRelease => exact ⟨_, rfl, s.dev.keeps_releaseReset⟩
  | attentionHoldExpiry => exact s.event_keeps _ (s.dev.keeps_expire .attention)
  | hello link letter tags code => exact s.event_keeps_cell _ (s.dev.cell.keeps_helloReceived link letter tags code)
  | ready link => exact s.event_keeps_cell _ (s.dev.cell.keeps_readyReceived link)
  | armFrameDiscarded link => exact s.event_keeps _ (.refl _)
  | listenTimerExpiry link => exact s.event_keeps_cell _ (s.dev.cell.keeps_listenExpiry link)
  | agreeTimerExpiry link => exact s.event_keeps_cell _ (s.dev.cell.keeps_agreeExpiry link)
  | silenceTimerExpiry link => exact s.event_keeps_cell _ (s.dev.cell.keeps_silenceExpiry link)
  | requestArrival link request =>
    exact s.event_keeps _ (.of_cell (keeps_requestArrives link request s.dev) (bus_requestArrives link request s.dev))
  | frameSent link => exact s.event_keeps _ (.of_cell (keeps_frameSent link s.dev) (Device.bus_serveWaiting _ _ _))
  | correct link tag kind tip u => exact s.serviceEvent_keeps link _
  | check link tag target => exact s.serviceEvent_keeps link _
  | reserve link tag first last wait => exact s.serviceEvent_keeps link _
  | release link tag first last => exact s.serviceEvent_keeps link _
  | changeBegin link tag target => exact s.serviceEvent_keeps link _
  | changeAbortArm link tag => exact s.serviceEvent_keeps link _
  | reportStaged link tag => exact s.serviceEvent_keeps link _
  | reportId link tag code => exact s.serviceEvent_keeps link _
  | reportHit link tag => exact s.serviceEvent_keeps link _
  | heartbeat link tag => exact s.serviceEvent_keeps link _
  | waitTimerExpiry link => exact s.event_keeps _ (s.dev.keeps_expire (.wait link))
  | stepTimerExpiry link => exact s.event_keeps _ (s.dev.keeps_expire (.step link))
  | engageTimerExpiry link => exact s.event_keeps _ (s.dev.keeps_expire (.engage link))
  | portLineChange link port line level =>
    refine ⟨_, rfl, Device.keeps_follows ?_⟩
    split
    · exact Cell.follows_modRack _ _ _
    · exact Cell.follows_lineChange _ _ _ _ _
  | filterExpiry link port line => exact s.event_keeps _ (s.dev.keeps_expire (.filter link port line))
  | maskEnd link => exact s.event_keeps _ (s.dev.keeps_expire (.mask link))
  | pollPeriodExpiry => exact s.event_keeps _ s.dev.keeps_pollPeriodExpiry
  | pollSent => exact s.event_keeps _ s.dev.keeps_pollSent
  | reply frame => exact s.event_keeps _ (Device.keeps_replyReceived frame s.dev)
  | replyTimeout => exact s.event_keeps _ s.dev.keeps_replyTimeout
  | slotEnd => exact s.event_keeps _ s.dev.keeps_slotEnd
  | announce checkOk address channels kind => exact s.event_keeps _ (Device.keeps_announceReceived checkOk _ s.dev)
  | lineStuck => exact s.event_keeps _ s.dev.keeps_lineStuck
  | busLineLevelChange driven =>
    refine ⟨_, rfl, s.dev.keeps_onBus _ (fun hq => ?_)⟩
    split
    · exact hq
    · exact s.dev.bus.quiet_lineChange driven hq
  | releasedTimerExpiry => exact s.event_keeps _ (s.dev.keeps_expire .released)
  | staleTimerExpiry channel => exact s.event_keeps _ (Device.keeps_staleExpiry channel s.dev)
  | holdTimerExpiry group => exact s.event_keeps _ (Device.keeps_holdExpiry group s.dev)

/-- Every step keeps the invariants. -/
theorem step_keeps {s t : State} (h : step s = .next t) : s.dev.Keeps t.dev := by
  have houtcome : ∃ d, t.dev = d ∧ s.dev.Keeps d := by
    cases hp : s.pending with
    | nil =>
      simp only [step, hp, Host.Outcome.next.injEq] at h
      exact ⟨_, by rw [← h], s.dev.keeps_idle⟩
    | cons c rest =>
      simp only [step, hp] at h
      obtain ⟨d, hd, hk⟩ := exec_keeps c { s with pending := rest }
      rw [hd, Host.Outcome.next.injEq] at h
      exact ⟨d, by rw [← h], hk⟩
  obtain ⟨d, hd, hk⟩ := houtcome
  rw [hd]
  exact hk

/-- What both arms keep, the state keeps. -/
theorem State.bothArms_of_step {s t : State} {P : Arm → Prop} (hP : ∀ m m' : Arm, m.Keeps m' → P m → P m') (hs : s.bothArms P)
    (h : step s = .next t) : t.bothArms P :=
  ⟨hP _ _ ((step_keeps h).cell .armA) hs.1, hP _ _ ((step_keeps h).cell .armB) hs.2⟩

/-- Settles O16: every step keeps a map LOADING in OFF arms alone. -/
theorem stepKeepsLoadingMapsToOffArms : Obligations.StepKeepsLoadingMapsToOffArms := by
  unfold Obligations.StepKeepsLoadingMapsToOffArms
  exact fun s t hs h => State.bothArms_of_step (fun m m' hk => hk.loads) hs h

/-- Settles O32: every step keeps the bus still outside RUN. -/
theorem stepKeepsTheBusQuietOutsideRun : Obligations.StepKeepsTheBusQuietOutsideRun := by
  unfold Obligations.StepKeepsTheBusQuietOutsideRun
  exact fun s t hs h => (step_keeps h).bus hs

/-- Settles O59: every step keeps the arms at rest outside RUN, their queues within their room, and requests served promptly. -/
theorem stepKeepsArmsAtRestOutsideRun : Obligations.StepKeepsArmsAtRestOutsideRun := by
  unfold Obligations.StepKeepsArmsAtRestOutsideRun
  exact fun s t hs h => State.bothArms_of_step (fun m m' hk => hk.sound) hs h

/-- Settles O60: the invariants hold of the part after power-on. -/
theorem invariantsHoldAtReset : Obligations.InvariantsHoldAtReset := by
  unfold Obligations.InvariantsHoldAtReset
  exact ⟨⟨Arm.reset_loadsOnlyOff _, Arm.reset_loadsOnlyOff _⟩, Bus.reset_quiet _, Arm.reset_sound _, Arm.reset_sound _⟩

end Sys2Proof.Machine
end

section
/-! PROOFS. The step, the queue of commands, the passing of time and reset (R1, R196, R200, R201): O1 to O6. -/

namespace Sys2Proof.Machine

/-! ### The step and the queue of commands -/

/-- Settles O1: the step of a queue with a front command is that command. -/
theorem stepRunsTheFrontCommand : Obligations.StepRunsTheFrontCommand := by
  unfold Obligations.StepRunsTheFrontCommand
  exact fun c rest s => rfl

/-! ### One millisecond (R1, R196) -/

theorem linesInOrder_nodup (n : Nat) : (linesInOrder n).Nodup := by
  refine List.pairwise_flatMap.2 ⟨fun i _ => by simp, List.nodup_range.imp (fun {i j} hij => ?_)⟩
  rintro ⟨k, line⟩ hi ⟨l, other⟩ hj heq
  simp only [List.mem_cons, Prod.mk.injEq, List.not_mem_nil, or_false] at hi hj heq
  omega

/-- A list keeps its entries apart under a map that does. -/
theorem nodup_map_of_apart {α β : Type} {f : α → β} {l : List α} (hf : ∀ x y, f x = f y → x = y) (h : l.Nodup) : (l.map f).Nodup :=
  List.pairwise_map.2 (h.imp (fun hne he => hne (hf _ _ he)))

theorem armTimers_nodup (a : ArmId) (n : Nat) : (armTimers a n).Nodup := by
  refine List.nodup_append.2 ⟨by simp, nodup_map_of_apart (fun x y h => ?_) (linesInOrder_nodup n), fun t ht u hu => ?_⟩
  · obtain ⟨x1, x2⟩ := x
    obtain ⟨y1, y2⟩ := y
    simpa using h
  · obtain ⟨x, -, rfl⟩ := List.mem_map.1 hu
    rintro rfl
    simp at ht

/-- The arm whose timer it is, none for a timer of another block. -/
def TimerId.arm? : TimerId → Option ArmId
  | .phase a | .silence a | .wait a | .step a | .engage a | .mask a | .filter a _ _ => some a
  | .attention | .pollPeriod | .released | .reply | .slot | .stuck | .stale _ | .hold _ => none

theorem arm?_of_mem_armTimers {a : ArmId} {n : Nat} {t : TimerId} (h : t ∈ armTimers a n) : t.arm? = some a := by
  simp only [armTimers, List.mem_append, List.mem_cons, List.not_mem_nil, or_false, List.mem_map] at h
  rcases h with (rfl | rfl | rfl | rfl | rfl | rfl) | ⟨x, _, rfl⟩ <;> rfl

/-- Timers of an arm and timers that are not of this arm have none in common. -/
theorem apart_armTimers {l : List TimerId} {a : ArmId} {n : Nat} (h : ∀ t ∈ l, t.arm? ≠ some a) :
    ∀ t ∈ l, ∀ u ∈ armTimers a n, t ≠ u :=
  fun t ht _ hu he => h t ht (he ▸ arm?_of_mem_armTimers hu)

/-- Every timer of the part is listed once. -/
theorem Device.timers_nodup (d : Device) : d.timers.Nodup := by
  have hsingle : ([.attention, .pollPeriod, .released, .reply, .slot, .stuck] : List TimerId).Nodup := by decide
  have hstale : ((List.range 32).map (fun k => TimerId.stale (k + 1))).Nodup :=
    nodup_map_of_apart (fun i j h => by simpa using h) List.nodup_range
  have hhold : ((List.range 12).map (fun g => TimerId.hold (g + 1))).Nodup :=
    nodup_map_of_apart (fun i j h => by simpa using h) List.nodup_range
  have hblocks : ∀ t ∈ ([.attention, .pollPeriod, .released, .reply, .slot, .stuck] : List TimerId) ++
      (List.range 32).map (fun k => TimerId.stale (k + 1)) ++ (List.range 12).map (fun g => TimerId.hold (g + 1)), t.arm? = none := by
    simp only [List.mem_append, List.mem_cons, List.not_mem_nil, or_false, List.mem_map]
    rintro t (((rfl | rfl | rfl | rfl | rfl | rfl) | ⟨k, _, rfl⟩) | ⟨g, _, rfl⟩) <;> rfl
  have hfirst := List.nodup_append.2 ⟨hsingle, hstale, fun t ht u hu he => ?_⟩
  have hsecond := List.nodup_append.2 ⟨hfirst, hhold, fun t ht u hu he => ?_⟩
  have harm := List.nodup_append.2 ⟨hsecond, armTimers_nodup .armA d.cell.armA.rack.ports.length,
    apart_armTimers (fun t ht => by simp [hblocks t ht])⟩
  refine List.nodup_append.2 ⟨harm, armTimers_nodup .armB _, apart_armTimers (fun t ht => ?_)⟩
  · rcases List.mem_append.1 ht with ht | ht
    · simp [hblocks t ht]
    · simp [arm?_of_mem_armTimers ht]
  · obtain ⟨g, -, rfl⟩ := List.mem_map.1 hu
    subst he
    simp at ht
  · obtain ⟨k, -, rfl⟩ := List.mem_map.1 hu
    subst he
    simp at ht

theorem Device.dueTimers_nodup (d : Device) : d.dueTimers.Nodup := d.elapse.timers_nodup.filter _

/-- The firing of a timer, as the statements write it. -/
theorem Device.fire_eq (d : Device) (t : TimerId) : d.fire t = if d.timer t = some 0 then d.expire t else d := by
  simp only [Device.fire, Timer.isDue_iff]

theorem Port.elapse_eq (p : Port) : p.elapse =
    { p with occupiedFilter := p.occupiedFilter.map (fun n => n - 1), headFilter := p.headFilter.map (fun n => n - 1) } := by
  simp only [Port.elapse, Timer.elapse_eq]

/-- Every command completes, and leaves the queue of commands to the step. -/
theorem exec_completes (c : Instr) (s : State) : ∃ d, exec c s = .next { s with dev := d } := by
  obtain ⟨d, h, _⟩ := exec_keeps c s
  exact ⟨d, h⟩

/-- Settles O2: a command completes by `exec_completes`; an idle step is `Device.elapse` and the firing of the timers that are due. -/
theorem everyCommandAndIdleStepCompletes : Obligations.EveryCommandAndIdleStepCompletes := by
  unfold Obligations.EveryCommandAndIdleStepCompletes
  refine ⟨exec_completes, fun s hp hh => ?_⟩
  refine ⟨s.dev.elapse, rfl, s.dev.timer_elapse, rfl, rfl, fun k => ?_, fun g => ?_, rfl, rfl, rfl, rfl, rfl, fun a => ?_, ?_⟩
  · rw [Device.channel_elapse]
  · rw [Device.group_elapse]
  · simp only [Device.arm_elapse]
    refine ⟨rfl, fun w hw => ⟨Timer.elapse w.timer, ?_⟩, fun hw => ?_, fun i => ?_⟩
    · simp [Arm.elapse, WaitSlot.elapse, hw]
    · simp [Arm.elapse, hw]
    · simp only [Arm.elapse, Rack.elapse, List.getElem?_map, ← Port.elapse_eq]
  · have hperm := freeOrder_perm s.dev.freeCount s.dev.dueTimers
    refine ⟨freeOrder s.dev.freeCount s.dev.dueTimers, hperm.nodup_iff.2 s.dev.dueTimers_nodup, fun t => ?_, ?_⟩
    · rw [hperm.mem_iff]; exact s.dev.mem_dueTimers t
    · have hfire : Device.fire = fun x t => if x.timer t = some 0 then x.expire t else x := by
        funext d t
        exact d.fire_eq t
      simp only [step, hp, Device.idle, hh, Device.tick_eq, hperm.length_eq, ← hfire]
      rfl

/-! ### Reset (R200, R201) -/

/-- Settles O3: the values after power-on, read off `Device.reset`. -/
theorem powerOnResetValues : Obligations.PowerOnResetValues := by
  unfold Obligations.PowerOnResetValues
  refine ⟨fun a => ?_, rfl, rfl, rfl, rfl, rfl, rfl, rfl, rfl, fun n hn => List.eq_of_mem_replicate hn, rfl, rfl,
    fun c hc => List.eq_of_mem_replicate hc, fun g hg => ?_, rfl, rfl, rfl, rfl, fun p hp => List.eq_of_mem_replicate hp, rfl, rfl⟩
  · cases a <;>
      exact ⟨rfl, rfl, rfl, rfl, rfl, rfl, rfl, rfl, rfl, rfl, rfl, rfl, rfl, rfl, fun k => by cases k <;> rfl⟩
  · rw [List.eq_of_mem_replicate hg]
    exact ⟨rfl, rfl, rfl, rfl, rfl, rfl⟩

/-- With room in the output queue a RESET frame resets the part (R194, R200). -/
theorem Device.resetCommand_taken (s : State) (h : s.takes 2) : s.dev.resetCommand = s.dev.resetBy .command := by
  have hroom : Config.serveRoom ≤ (s.dev.link.clockOut 2).room := by
    simp only [CellLink.room, CellLink.clockOut, List.length_drop, Config.serveRoom, Config.outQueueRoom]
    have := h.2
    omega
  simp only [Device.resetCommand, if_pos hroom]
  rfl

/-- Settles O4: RESET, the reset input and power-on each give the part its values after reset. -/
theorem resetCommandResetInputAndPowerOn : Obligations.ResetCommandResetInputAndPowerOn := by
  unfold Obligations.ResetCommandResetInputAndPowerOn
  refine ⟨fun s => ⟨fun ht => ?_, rfl, fun hh => ?_, fun hh => ?_, rfl⟩, fun pins n => ⟨rfl, rfl, rfl⟩⟩
  · refine (s.event_live _ ht.1).trans ?_
    rw [Device.resetCommand_taken s ht]
    rfl
  · simp only [exec, execResetInputRelease, Device.releaseReset, hh, if_true]
    rfl
  · simp only [exec, execResetInputRelease, Device.releaseReset, hh]
    rfl

/-- Settles O5: every command but those five is an event of the part, and a held part disregards events. -/
theorem heldPartDisregardsCommands : Obligations.HeldPartDisregardsCommands := by
  unfold Obligations.HeldPartDisregardsCommands
  refine fun c s hh => ⟨?_, fun hp => ?_⟩
  · cases c with
    | powerOn | resetInputAssert | resetInputRelease | portLineChange | busLineLevelChange => trivial
    | _ => exact s.event_held _ hh
  · simp only [step, hp, Device.idle, hh, if_true]
    rw [← hp]

/-- The busy answer of a cell link, as the statements write it (R194). -/
theorem CellLink.appendShort_eq (l : CellLink) (n code reason status : Nat) (st : Status) (hst : st.number = status) :
    (l.clockOut n).appendShort (BitVec.ofNat 16 code) st reason =
      if l.queue.length - n + 3 ≤ 1024 then
        { l with
          queue := l.queue.drop n ++
            [BitVec.ofNat 16 code, BitVec.ofNat 16 (status + 256 * reason + if l.overflow then 32768 else 0), 3]
          overflow := false }
      else { l with queue := l.queue.drop n, overflow := true } := by
  have hroom : Config.shortResponse ≤ (l.clockOut n).room ↔ l.queue.length - n + 3 ≤ 1024 := by
    simp only [CellLink.room, CellLink.clockOut, List.length_drop, Config.shortResponse, Config.outQueueRoom]
    omega
  simp only [CellLink.appendShort, hroom]
  split
  · subst hst
    simp only [CellLink.append, responseWords, CellLink.clockOut, List.length_nil, Config.shortResponse, Nat.add_zero]
    cases l.overflow <;> rfl
  · rfl

/-- Settles O6: a command without room is answered BUSY, or marked. -/
theorem busyCommandChangesOnlyTheOutputQueue : Obligations.BusyCommandChangesOnlyTheOutputQueue := by
  unfold Obligations.BusyCommandChangesOnlyTheOutputQueue
  intro c code fields s hc hh hroom
  have hbusy := CellLink.appendShort_eq s.dev.link (fields.length + 2) code 0 4 .busy rfl
  by_cases hr : c = .reset
  · subst hr
    simp only [commandWords, Option.some.injEq, Prod.mk.injEq] at hc
    obtain ⟨rfl, rfl⟩ := hc
    refine (s.event_live _ hh).trans ?_
    have hno : ¬ Config.serveRoom ≤ (s.dev.link.clockOut 2).room := by
      simp only [CellLink.room, CellLink.clockOut, List.length_drop, Config.serveRoom, Config.outQueueRoom]
      simp only [List.length_nil] at hroom
      omega
    simp only [Device.resetCommand, if_neg hno]
    exact congrArg (fun l => Host.Outcome.next { s with dev := { s.dev with link := l } }) hbusy
  · obtain ⟨serve, hexec⟩ := exec_command c code fields hc hr
    rw [hexec, State.command_busy s _ _ serve hh hroom]
    exact congrArg (fun l => Host.Outcome.next { s with dev := { s.dev with link := l } }) hbusy

end Sys2Proof.Machine
end

section
/-! PROOFS. The frames of the cell link, the notice set, and the commands that read (R41, R42, R54, R64, R72, R86, R95, R121, R156,
R176, R192 to R199, R202): O7 to O11. -/

namespace Sys2Proof.Machine

/-! ### Frames (R192 to R194) -/

/-- The words that a frame clocks out: the queue from its oldest word, and idle words after it (R193). -/
theorem CellLink.wordsOut_getElem? (l : CellLink) (n i : Nat) (h : i < n) :
    (l.wordsOut n)[i]? = if i < l.queue.length then l.queue[i]? else some 65535 := by
  rw [l.wordsOut_get n i h]
  split
  · rw [List.getElem?_eq_getElem ‹_›]; rfl
  · rw [List.getElem?_eq_none (by omega)]; rfl

/-- Settles O7: idle words, read frames and frame errors. -/
theorem framesThatAreNoCommand : Obligations.FramesThatAreNoCommand := by
  unfold Obligations.FramesThatAreNoCommand
  refine ⟨fun l n => ⟨l.wordsOut_length n, fun i => l.wordsOut_getElem? n i⟩, fun n s hh => s.event_live _ hh, ?_⟩
  intro reason code words s hh
  refine (s.event_live _ hh).trans ?_
  simp only [Device.frameError]
  have hanswer := CellLink.appendShort_eq s.dev.link words (receivedCode code words) (frameReasonCode reason) 35 .frameError rfl
  refine congrArg (fun l => Host.Outcome.next { s with dev :=
    { s.dev with cell := s.dev.cell.addNotice (.frameError reason (receivedCode code words)), link := l } }) (hanswer.trans ?_)
  cases reason <;> rfl

/-! ### The notice set (R197 to R199) -/

/-- Settles O8: one place of the notice set is written. -/
theorem noticeKeepsItsFirstArgument : Obligations.NoticeKeepsItsFirstArgument := by
  unfold Obligations.NoticeKeepsItsFirstArgument
  refine fun c n => ⟨fun h => ?_, fun e h => ?_, fun k h => ?_, rfl⟩
  · rw [Cell.addNotice_get, h]; rfl
  · rw [Cell.addNotice_get, h]; rfl
  · exact Table.get_set_other _ _ _ _ _ h

/-- A taken command that changes no record. -/
theorem State.command_leaves (s : State) (code words status : Nat) (serve : Device → Served) (h : s.takes words) (st : Status)
    (body : List Word) (hs : serve (s.dev.clocked words) = ⟨s.dev.clocked words, st, body⟩) (hst : st.number = status) :
    s.command (BitVec.ofNat 16 code) words serve = .next (s.answered code words status body s.dev) :=
  s.command_answers code words status serve h s.dev st body hs hst

theorem switchOfCode_none {n : Nat} (h : 2 ≤ n) : switchOfCode n = none := by
  match n, h with
  | n + 2, _ => rfl

theorem Cell.noticeList_empty (c : Cell) : ({ c with notices := emptyNotices } : Cell).noticeList = [] := rfl

theorem Device.attention_iff (d : Device) : d.attention = true ↔ d.cell.noticeList ≠ [] ∧ d.link.hold = none := by
  simp [Device.attention]

/-- Settles O9: the three answers of READ_NOTICES and the expiry of the attention hold. -/
theorem readNoticesAnswersAndClears : Obligations.ReadNoticesAnswersAndClears := by
  unfold Obligations.ReadNoticesAnswersAndClears
  refine ⟨fun s ht => ⟨?_, ⟨_, ?_, rfl, rfl, rfl⟩, fun clear hc => ?_⟩, fun s hh => ⟨_, s.event_live _ hh, rfl, ?_⟩⟩
  · exact s.command_leaves 1290 3 0 _ ht .ok _ rfl rfl
  · exact s.command_answers 1290 3 0 _ ht { s.dev with
      cell := { s.dev.cell with notices := Table.fill (Option NoticeEntry) 16 none }
      link := { s.dev.link with hold := some 1 } } .ok _ rfl rfl
  · refine s.command_leaves 1290 3 7 _ ht .badArg [] ?_ rfl
    simp only [serveReadNotices, switchOfCode_none hc]
    rfl
  · simp [Device.attention_iff, CellLink.holdExpiry]

/-! ### Commands that read (R195) -/

@[simp] theorem Device.channel_clocked (d : Device) (n k : Nat) : (d.clocked n).channel k = d.channel k := rfl
@[simp] theorem Device.group_clocked (d : Device) (n g : Nat) : (d.clocked n).group g = d.group g := rfl
@[simp] theorem Device.map_clocked (d : Device) (n : Nat) (a : ArmId) (k : Axis) : (d.clocked n).map a k = d.map a k := rfl

theorem numberOk_eq_false {n k : Nat} (h : ¬(1 ≤ k ∧ k ≤ n)) : numberOk n k = false :=
  Bool.eq_false_iff.2 (fun hk => h ((numberOk_iff n k).1 hk))

theorem armAxis_some {arm axis : Nat} {a : ArmId} {k : Axis} (ha : armOfCode arm = some a) (hk : axisOfCode axis = some k) :
    armAxis arm axis = some (a, k) := by simp only [armAxis, ha, hk]

theorem armAxis_none {arm axis : Nat} (h : armOfCode arm = none ∨ axisOfCode axis = none) : armAxis arm axis = none := by
  rcases h with h | h
  · simp only [armAxis, h]
  · cases ha : armOfCode arm <;> simp only [armAxis, h, ha]

/-- The answer of a command whose service leaves the part. -/
def State.Answers (s : State) (c : Instr) (code words status : Nat) (body : List Word) : Prop :=
  s.takes words → exec c s = .next (s.answered code words status body s.dev)

section Reads
variable (s : State)

theorem readProbe_ok {p : Nat} (h : 1 ≤ p ∧ p ≤ 40) :
    s.Answers (.readProbe p) 1281 3 0 (probeWords p (s.dev.cell.probe p)) := fun ht =>
  s.command_leaves 1281 3 0 _ ht .ok _ (by simp only [serveReadProbe, (numberOk_iff 40 p).2 h]; rfl) rfl

theorem readProbe_refused {p : Nat} (h : ¬(1 ≤ p ∧ p ≤ 40)) : s.Answers (.readProbe p) 1281 3 7 [] := fun ht =>
  s.command_leaves 1281 3 7 _ ht .badArg _ (by simp only [serveReadProbe, numberOk_eq_false h]; rfl) rfl

theorem readPort_unknownArm {arm : Nat} (k : Nat) (h : armOfCode arm = none) : s.Answers (.readPort arm k) 1282 4 7 [] := fun ht =>
  s.command_leaves 1282 4 7 _ ht .badArg _ (by simp only [serveReadPort, h]; rfl) rfl

theorem readPort_zero {arm : Nat} {a : ArmId} (h : armOfCode arm = some a) :
    s.Answers (.readPort arm 0) 1282 4 0
      (word (s.dev.cell.arm a).rack.ports.length ++ portParamsWords (s.dev.cell.arm a).rack.params ++
        word (seatedCode (s.dev.cell.arm a).seq.seated) ++ seqStateWords (s.dev.cell.arm a).seq.state ++
        planWords (s.dev.cell.arm a).seq.state ++ flagWord (s.dev.cell.arm a).seq.latch ++
        flagWord (s.dev.cell.arm a).rack.maskTimer.isSome ++ ringsWords (s.dev.cell.arm a).seq.rings) := fun ht =>
  s.command_leaves 1282 4 0 _ ht .ok _ (by simp only [serveReadPort, h]; rfl) rfl

theorem readPort_outside {arm k : Nat} {a : ArmId} (h : armOfCode arm = some a) (h1 : 1 ≤ k)
    (hk : (s.dev.cell.arm a).rack.ports.length < k) : s.Answers (.readPort arm k) 1282 4 7 [] := fun ht => by
  have hport : s.dev.cell.port? a k = none := by
    obtain ⟨i, rfl⟩ : ∃ i, k = i + 1 := ⟨k - 1, by omega⟩
    simpa [Cell.port?, nth] using (by omega : (s.dev.cell.arm a).rack.ports.length ≤ i)
  refine s.command_leaves 1282 4 7 _ ht .badArg _ ?_ rfl
  simp only [serveReadPort, h, Device.cell_clocked, hport, if_neg (by omega : ¬k = 0)]
  rfl

theorem readPort_configured {arm k : Nat} {a : ArmId} {p : Port} (h : armOfCode arm = some a) (h1 : 1 ≤ k)
    (hp : s.dev.cell.port? a k = some p) :
    s.Answers (.readPort arm k) 1282 4 0
      (portStateWords p.state ++ boxWords p.box ++ flagWord p.occupied ++ flagWord p.head ++
        flagWord ((s.dev.cell.arm a).seq.state.plan?.bind Plan.drop == some k) ++
        flagWord ((s.dev.cell.arm a).seq.state.plan?.bind Plan.pick == some k)) := fun ht => by
  refine s.command_leaves 1282 4 0 _ ht .ok _ ?_ rfl
  simp only [serveReadPort, h, Device.cell_clocked, hp, if_neg (by omega : ¬k = 0)]

theorem readNode_known {k : Nat} (h1 : 1 ≤ k) (h : k ≤ 16) :
    s.Answers (.readNode k) 1283 3 0 (word (s.dev.bus.node k).address ++ word (s.dev.bus.node k).channels ++
      word (s.dev.bus.node k).state.number ++ word (s.dev.bus.node k).missed ++ word (s.dev.bus.node k).good) := fun ht =>
  s.command_leaves 1283 3 0 _ ht .ok _
    (by simp only [serveReadNode, if_neg (by omega : ¬16 < k), if_neg (by omega : ¬k = 0)]; rfl) rfl

theorem readNode_refused {k : Nat} (h : ¬k ≤ 16) : s.Answers (.readNode k) 1283 3 7 [] := fun ht =>
  s.command_leaves 1283 3 7 _ ht .badArg _ (by simp only [serveReadNode, if_pos (by omega : 16 < k)]; rfl) rfl

theorem readChannel_refused {k : Nat} (h : ¬(1 ≤ k ∧ k ≤ 32)) : s.Answers (.readChannel k) 1285 3 7 [] := fun ht =>
  s.command_leaves 1285 3 7 _ ht .badArg _ (by simp only [serveReadChannel, numberOk_eq_false h]; rfl) rfl

theorem readChannel_ok {k : Nat} (h : 1 ≤ k ∧ k ≤ 32) :
    s.Answers (.readChannel k) 1285 3 0 (channelConfigWords (s.dev.channel k) ++ word (s.dev.channel k).state.number ++
      word (s.dev.channel k).window.length ++ (s.dev.channel k).window.flatMap (fun v => word2 v) ++
      optionWords (s.dev.channel k).filtered ++ word (s.dev.channel k).rejects ++ optionWords (s.dev.channel k).lastAccepted ++
      timerWord2 (s.dev.channel k).staleTimer) := fun ht =>
  s.command_leaves 1285 3 0 _ ht .ok _ (by simp only [serveReadChannel, (numberOk_iff 32 k).2 h]; rfl) rfl

theorem readGroup_known {k : Nat} (h1 : 1 ≤ k) (h : k ≤ 12) :
    s.Answers (.readGroup k) 1286 3 0 (word (s.dev.group k).state.number ++ optionWords (s.dev.group k).value ++
      word2 (s.dev.group k).holdTime ++ word (s.dev.group k).spreadLimit ++ flagWord (s.dev.group k).spread ++
      timerWord2 (s.dev.group k).holdTimer ++ word (s.dev.group k).members ++ word (s.dev.group k).usable) := fun ht =>
  s.command_leaves 1286 3 0 _ ht .ok _
    (by simp only [serveReadGroup, if_neg (by omega : ¬12 < k), if_neg (by omega : ¬k = 0)]; rfl) rfl

theorem readGroup_refused {k : Nat} (h : ¬k ≤ 12) : s.Answers (.readGroup k) 1286 3 7 [] := fun ht =>
  s.command_leaves 1286 3 7 _ ht .badArg _ (by simp only [serveReadGroup, if_pos (by omega : 12 < k)]; rfl) rfl

theorem readArm_refused {arm : Nat} (h : armOfCode arm = none) : s.Answers (.readArm arm) 1288 3 7 [] := fun ht =>
  s.command_leaves 1288 3 7 _ ht .badArg _ (by simp only [serveReadArm, h]; rfl) rfl

theorem readArm_ok {arm : Nat} {a : ArmId} (h : armOfCode arm = some a) :
    s.Answers (.readArm arm) 1288 3 0
      (scaleWords (s.dev.cell.arm a).settings (s.dev.cell.arm a).groups ++ pointWords (s.dev.workpiece.datum a) ++
        word s.dev.workpiece.group ++ word s.dev.workpiece.alpha ++
        limitsWords (s.dev.cell.arm a).settings (s.dev.cell.arm a).configured ++ word (s.dev.cell.arm a).port.mode.number ++
        sampleWords (s.dev.cell.arm a).lastSample ++
        listWords ((s.dev.cell.arm a).rackBoxNumbers.filter (s.dev.cell.arm a).exitSet.contains) ++
        listWords (s.dev.cell.arm a).openBoxes ++ boxWords (s.dev.cell.envelope a).saturated ++
        boxWords (s.dev.cell.usedBox a) ++ portWords (s.dev.cell.arm a).port) := fun ht =>
  s.command_leaves 1288 3 0 _ ht .ok _ (by simp only [serveReadArm, h]; rfl) rfl

theorem readMap_unknown {arm axis : Nat} (first count : Nat) (h : armOfCode arm = none ∨ axisOfCode axis = none) :
    s.Answers (.readMap arm axis first count) 1289 6 7 [] := fun ht =>
  s.command_leaves 1289 6 7 _ ht .badArg _ (by simp only [serveReadMap, armAxis_none h]; rfl) rfl

theorem readMap_ok {arm axis first count : Nat} {a : ArmId} {k : Axis} (ha : armOfCode arm = some a) (hk : axisOfCode axis = some k)
    (h : count ≤ 8 ∧ first ≤ 63 ∧ (count = 0 ∨ first + count ≤ ((s.dev.cell.arm a).maps.get k).nodes.length)) :
    s.Answers (.readMap arm axis first count) 1289 6 0 (mapHeaderWords ((s.dev.cell.arm a).maps.get k) ++
      ((((s.dev.cell.arm a).maps.get k).nodes.drop first).take count).flatMap mapEntryWords) := fun ht => by
  refine s.command_leaves 1289 6 0 _ ht .ok _ ?_ rfl
  simp only [serveReadMap, armAxis_some ha hk, Device.map, Device.cell_clocked]
  exact if_neg (by omega)

theorem readMap_refused {arm axis first count : Nat} {a : ArmId} {k : Axis} (ha : armOfCode arm = some a)
    (hk : axisOfCode axis = some k)
    (h : ¬(count ≤ 8 ∧ first ≤ 63 ∧ (count = 0 ∨ first + count ≤ ((s.dev.cell.arm a).maps.get k).nodes.length))) :
    s.Answers (.readMap arm axis first count) 1289 6 7 [] := fun ht => by
  refine s.command_leaves 1289 6 7 _ ht .badArg _ ?_ rfl
  simp only [serveReadMap, armAxis_some ha hk, Device.map, Device.cell_clocked]
  exact if_pos (by omega)

end Reads

/-- Settles O10: one lemma for each read command and outcome. -/
theorem readCommandsAnswerWhatTheyRead : Obligations.ReadCommandsAnswerWhatTheyRead := by
  unfold Obligations.ReadCommandsAnswerWhatTheyRead
  intro s d answers refused
  refine ⟨fun p => ?_, fun arm k h => readPort_unknownArm s k h, fun arm a h => ⟨readPort_zero s h, fun k h1 => ?_⟩, ?_,
    fun k h1 => ?_, ?_, fun k => ?_, ?_, fun k h1 => ?_, ?_, fun arm h => readArm_refused s h, fun arm a h => readArm_ok s h,
    fun arm axis first count h => readMap_unknown s first count h, fun arm axis first count a k ha hk => ?_, ?_⟩
  · split
    · exact readProbe_ok s ‹_›
    · exact readProbe_refused s ‹_›
  · exact ⟨readPort_outside s h h1, fun p hp => readPort_configured s h h1 hp⟩
  · exact fun ht => s.command_leaves 1283 3 0 _ ht .ok _ rfl rfl
  · dsimp only
    split
    · exact readNode_known s h1 ‹_›
    · exact readNode_refused s ‹_›
  · exact fun ht => s.command_leaves 1284 2 0 _ ht .ok _ rfl rfl
  · dsimp only
    split
    · exact readChannel_ok s ‹_›
    · exact readChannel_refused s ‹_›
  · exact fun ht => s.command_leaves 1286 3 0 _ ht .ok _ rfl rfl
  · dsimp only
    split
    · exact readGroup_known s h1 ‹_›
    · exact readGroup_refused s ‹_›
  · exact fun ht => s.command_leaves 1287 2 0 _ ht .ok _ rfl rfl
  · dsimp only
    split
    · exact readMap_ok s ha hk ‹_›
    · exact readMap_refused s ha hk ‹_›
  · exact fun ht => s.command_leaves 1291 2 0 _ ht .ok _ rfl rfl

/-! ### Frames read back (R192, R202) -/

/-- Settles O11: `Laws.WireForm` has a law for each command of the cell link; the other commands have no frame. -/
theorem commandFramesReadBack : Obligations.CommandFramesReadBack := by
  unfold Obligations.CommandFramesReadBack
  intro i ws hwf hframe
  suffices h : Laws.WireForm.Statement i from h hwf ws hframe
  cases i with
  | armConfig arm settings => exact Laws.WireForm.armConfig arm settings
  | portConfig arm count boxes params => exact Laws.WireForm.portConfig arm count boxes params
  | bayConfig count origin width => exact Laws.WireForm.bayConfig count origin width
  | workpieceSet group alpha datumA datumB => exact Laws.WireForm.workpieceSet group alpha datumA datumB
  | busSet period timeout short long rejoin => exact Laws.WireForm.busSet period timeout short long rejoin
  | nodeAdd node address channels => exact Laws.WireForm.nodeAdd node address channels
  | nodeRemove node => exact Laws.WireForm.nodeRemove node
  | channelSet channel node index group window stepLimit fine longStale rejectLimit staleTime =>
    exact Laws.WireForm.channelSet channel node index group window stepLimit fine longStale rejectLimit staleTime
  | channelRemove channel => exact Laws.WireForm.channelRemove channel
  | groupSet group hold spread => exact Laws.WireForm.groupSet group hold spread
  | tempSet drift groupsA groupsB => exact Laws.WireForm.tempSet drift groupsA groupsB
  | mapOpen arm axis tag origin spacing count => exact Laws.WireForm.mapOpen arm axis tag origin spacing count
  | mapNodes arm axis first entries => exact Laws.WireForm.mapNodes arm axis first entries
  | mapClose arm axis => exact Laws.WireForm.mapClose arm axis
  | mapClear arm axis => exact Laws.WireForm.mapClear arm axis
  | probeDefine probe code home count touchLimit tips => exact Laws.WireForm.probeDefine probe code home count touchLimit tips
  | tipQualify probe tip offset radius => exact Laws.WireForm.tipQualify probe tip offset radius
  | probeRetire probe => exact Laws.WireForm.probeRetire probe
  | expect arm port probe => exact Laws.WireForm.expect arm port probe
  | portDisable arm port => exact Laws.WireForm.portDisable arm port
  | portEnable arm port => exact Laws.WireForm.portEnable arm port
  | armEnable arm => exact Laws.WireForm.armEnable arm
  | armDisable arm => exact Laws.WireForm.armDisable arm
  | busEnable => exact Laws.WireForm.busEnable
  | busDisable => exact Laws.WireForm.busDisable
  | busRecover => exact Laws.WireForm.busRecover
  | channelClear channel => exact Laws.WireForm.channelClear channel
  | stopRelease arm => exact Laws.WireForm.stopRelease arm
  | changeAbortCell arm => exact Laws.WireForm.changeAbortCell arm
  | changeResolve arm seated drop pick => exact Laws.WireForm.changeResolve arm seated drop pick
  | bayClear arm => exact Laws.WireForm.bayClear arm
  | announceClear => exact Laws.WireForm.announceClear
  | reset => exact Laws.WireForm.reset
  | readProbe probe => exact Laws.WireForm.readProbe probe
  | readPort arm port => exact Laws.WireForm.readPort arm port
  | readNode node => exact Laws.WireForm.readNode node
  | readAnnounce => exact Laws.WireForm.readAnnounce
  | readChannel channel => exact Laws.WireForm.readChannel channel
  | readGroup group => exact Laws.WireForm.readGroup group
  | readBays => exact Laws.WireForm.readBays
  | readArm arm => exact Laws.WireForm.readArm arm
  | readMap arm axis first count => exact Laws.WireForm.readMap arm axis first count
  | readNotices clear => exact Laws.WireForm.readNotices clear
  | readId => exact Laws.WireForm.readId
  | _ => exact Laws.WireForm.of_none rfl

end Sys2Proof.Machine
end

section
/-! PROOFS. The map commands (R31 to R42): O12 to O15. -/

namespace Sys2Proof.Machine

/-! ### Operands, as the statements write them -/

theorem clampInt_eq_min_max (lo hi v : Int) (h : lo ≤ hi) : clampInt lo hi v = min (max v lo) hi := by
  rw [clampInt_eq lo hi v h]; omega

/-- The status of a command by whether the clamped operand is the one sent (R195). -/
theorem clampStatus_ne_number {α : Type} [DecidableEq α] (x y : α) : (clampStatus (x != y)).number = if x = y then 0 else 1 := by
  rw [clampStatus_number]
  by_cases h : x = y <;> simp [h]

/-- A taken command that changes the arms, probes, bays and notices alone. -/
theorem State.command_cell (s : State) (code words status : Nat) (serve : Device → Served) (h : s.takes words) (c : Cell)
    (st : Status) (body : List Word) (f : Cell → Cell)
    (hs : serve (s.dev.clocked words) = ⟨(s.dev.clocked words).onCell f, st, body⟩) (hc : f s.dev.cell = c)
    (hst : st.number = status) :
    s.command (BitVec.ofNat 16 code) words serve = .next (s.answered code words status body { s.dev with cell := c }) := by
  subst hc
  exact s.command_answers code words status serve h _ st body hs hst

/-! ### Written entries (R37, R38) -/

theorem writeNodes_length (entries : List MapNode) (nodes : List MapEntry) (first : Nat) :
    (writeNodes nodes first entries).length = nodes.length := by
  induction entries generalizing nodes first with
  | nil => rfl
  | cons e es ih => simp only [writeNodes, ih, List.length_set]

theorem writeNodes_outside (entries : List MapNode) (nodes : List MapEntry) (first j : Nat)
    (h : j < first ∨ first + entries.length ≤ j) : (writeNodes nodes first entries)[j]? = nodes[j]? := by
  induction entries generalizing nodes first with
  | nil => rfl
  | cons e es ih =>
    simp only [List.length_cons] at h
    rw [writeNodes, ih _ _ (by omega), List.getElem?_set_ne (by omega)]

theorem writeNodes_inside (entries : List MapNode) (nodes : List MapEntry) (first i : Nat) (e : MapNode)
    (hroom : first + entries.length ≤ nodes.length) (h : entries[i]? = some e) :
    (writeNodes nodes first entries)[first + i]? = some ⟨e, true⟩ := by
  induction entries generalizing nodes first i with
  | nil => simp at h
  | cons x xs ih =>
    simp only [List.length_cons] at hroom
    cases i with
    | zero =>
      simp only [List.getElem?_cons_zero, Option.some.injEq] at h
      rw [writeNodes, writeNodes_outside _ _ _ _ (by omega), Nat.add_zero, List.getElem?_set_self (by omega), h]
    | succ i =>
      rw [writeNodes, show first + (i + 1) = first + 1 + i by omega]
      exact ih _ _ _ (by simp only [List.length_set]; omega) h

/-! ### MAP_OPEN, MAP_NODES, MAP_CLOSE and MAP_CLEAR (R35 to R40) -/

theorem Cell.isOff_of_off {c : Cell} {a : ArmId} (h : (c.arm a).port.mode = .off) : c.isOff a = true := by simp [h]

theorem Cell.isOff_of_not_off {c : Cell} {a : ArmId} (h : (c.arm a).port.mode ≠ .off) : c.isOff a = false := by simp [h]

/-- Settles O12: no check of MAP_OPEN fails, and the map is set. -/
theorem mapOpenSetsUpALoadingMap : Obligations.MapOpenSetsUpALoadingMap := by
  unfold Obligations.MapOpenSetsUpALoadingMap
  intro arm axis tag count origin spacing a k s ht ha hk hoff h2 h64 sp hhigh
  have hsp : clampedSpacing spacing = sp := clampInt_eq_min_max 1000 2000000 spacing (by decide)
  have hlow : ¬Config.positionHigh < origin + ((count : Int) - 1) * sp := by
    rw [show Config.positionHigh = 2147483647 from rfl]
    omega
  refine s.command_answers 513 11 _ _ ht _ (clampStatus (clampedSpacing spacing != spacing)) _ ?_ ?_
  · simp only [serveMapOpen, armAxis_some ha hk, Device.cell_clocked, Cell.isOff_of_off hoff, hsp,
      if_neg (by omega : ¬(count < 2 ∨ 64 < count)), if_neg hlow]
    rfl
  · rw [clampStatus_ne_number, hsp]

/-- Settles O13: the entries of `writeNodes`. -/
theorem mapNodesWriteTheirEntries : Obligations.MapNodesWriteTheirEntries := by
  unfold Obligations.MapNodesWriteTheirEntries
  intro arm axis first entries a k s ht ha hk hoff hload h1 h8 hfirst hroom
  refine ⟨writeNodes ((s.dev.cell.arm a).maps.get k).nodes first entries, writeNodes_length _ _ _,
    fun i e => writeNodes_inside _ _ _ i e hroom, fun j => writeNodes_outside _ _ _ j, ?_⟩
  refine s.command_cell 514 (6 + 4 * entries.length) 0 _ ht _ .ok _
    (fun c => c.modArm a (fun m => { m with
      maps := m.maps.set k { s.dev.map a k with nodes := writeNodes (s.dev.map a k).nodes first entries } })) ?_
    (Cell.modArm_congr _ _ _ _ (by simp only [Device.map])) rfl
  simp only [serveMapNodes, armAxis_some ha hk, Device.cell_clocked, Cell.isOff_of_off hoff, Device.map, hload,
    if_neg (by omega : ¬(entries.length < 1 ∨ 8 < entries.length ∨ 63 < first)),
    if_neg (by omega : ¬((s.dev.cell.arm a).maps.get k).nodes.length < first + entries.length)]
  rfl

theorem MapRecord.unwritten_eq_zero {m : MapRecord} (h : ∀ e ∈ m.nodes, e.written = true) : m.unwritten = 0 := by
  simp only [MapRecord.unwritten, List.length_eq_zero_iff, List.filter_eq_nil_iff]
  exact fun e he => by simp [h e he]

theorem MapRecord.lowestUnwritten_eq {m : MapRecord} {i : Nat} {e : MapEntry} (he : m.nodes[i]? = some e) (hw : e.written = false)
    (hlow : ∀ j x, j < i → m.nodes[j]? = some x → x.written = true) : m.lowestUnwritten = i := by
  obtain ⟨hi, rfl⟩ := List.getElem?_eq_some_iff.1 he
  have hfind : m.nodes.findIdx? (fun e => !e.written) = some i := by
    refine List.findIdx?_eq_some_iff_getElem.2 ⟨hi, by simp [hw], fun j hj => ?_⟩
    simp [hlow j _ hj (List.getElem?_eq_getElem (by omega))]
  rw [MapRecord.lowestUnwritten, hfind]
  rfl

theorem MapRecord.unwritten_ne_zero {m : MapRecord} {i : Nat} {e : MapEntry} (he : m.nodes[i]? = some e)
    (hw : e.written = false) : m.unwritten ≠ 0 := by
  have hmem : e ∈ m.nodes.filter (fun e => !e.written) := List.mem_filter.2 ⟨List.mem_of_getElem? he, by simp [hw]⟩
  exact Nat.ne_of_gt (List.length_pos_of_mem hmem)

/-- Settles O14: MAP_CLOSE by whether every index is written; MAP_CLEAR from any state. -/
theorem mapCloseAndMapClear : Obligations.MapCloseAndMapClear := by
  unfold Obligations.MapCloseAndMapClear
  intro arm axis a k s ht ha hk hoff m put
  refine ⟨fun hload hall => ?_, fun i e hload he hw hlow => ?_, fun hload => ?_, ?_⟩
  · refine s.command_answers 515 4 0 _ ht _ .ok _ ?_ rfl
    simp only [serveMapClose, armAxis_some ha hk, Device.cell_clocked, Cell.isOff_of_off hoff, Device.map_clocked,
      show s.dev.map a k = m from rfl, hload, MapRecord.unwritten_eq_zero hall]
    rfl
  · refine s.command_leaves 515 4 33 _ ht .incomplete _ ?_ rfl
    simp only [serveMapClose, armAxis_some ha hk, Device.cell_clocked, Cell.isOff_of_off hoff, Device.map_clocked,
      show s.dev.map a k = m from rfl, hload, if_pos (MapRecord.unwritten_ne_zero he hw), MapRecord.lowestUnwritten_eq he hw hlow]
    rfl
  · refine s.command_leaves 515 4 8 _ ht .badState _ ?_ rfl
    simp only [serveMapClose, armAxis_some ha hk, Device.cell_clocked, Cell.isOff_of_off hoff, Device.map_clocked,
      show s.dev.map a k = m from rfl]
    exact if_pos hload
  · refine s.command_answers 516 4 0 _ ht _ .ok _ ?_ rfl
    simp only [serveMapClear, armAxis_some ha hk, Device.cell_clocked, Cell.isOff_of_off hoff]
    rfl

/-- Settles O15: the first check of each map command refuses an arm that is not OFF. -/
theorem mapCommandsNeedTheArmOff : Obligations.MapCommandsNeedTheArmOff := by
  unfold Obligations.MapCommandsNeedTheArmOff
  intro arm axis a k s ha hk hmode
  refine ⟨fun tag origin spacing count ht => s.command_leaves 513 11 8 _ ht .badState [] ?_ rfl,
    fun first entries ht => s.command_leaves 514 _ 8 _ ht .badState [] ?_ rfl,
    fun ht => ⟨s.command_leaves 515 4 8 _ ht .badState [] ?_ rfl, s.command_leaves 516 4 8 _ ht .badState [] ?_ rfl⟩⟩
  · simp only [serveMapOpen, armAxis_some ha hk, Device.cell_clocked, Cell.isOff_of_not_off hmode]
    rfl
  · simp only [serveMapNodes, armAxis_some ha hk, Device.cell_clocked, Cell.isOff_of_not_off hmode]
    rfl
  · simp only [serveMapClose, armAxis_some ha hk, Device.cell_clocked, Cell.isOff_of_not_off hmode]
    rfl
  · simp only [serveMapClear, armAxis_some ha hk, Device.cell_clocked, Cell.isOff_of_not_off hmode]
    rfl

end Sys2Proof.Machine
end

section
/-! PROOFS. The rounded quotient and the interpolation of a map (R3, R8, R14 to R16): O18. -/

namespace Sys2Proof.Machine

/-! ### The rounded quotient (R3, R8) -/

theorem roundDiv_of_nonneg {n : Int} (d : Int) (h : 0 ≤ n) : roundDiv n d = (2 * n + d) / (2 * d) := if_pos h

/-- A rounded quotient of opposite sign. -/
theorem roundDiv_neg (n d : Int) (hd : 0 < d) : roundDiv (-n) d = -roundDiv n d := by
  have hzero : d / (2 * d) = 0 := Int.ediv_eq_zero_of_lt (by omega) (by omega)
  rcases Int.lt_trichotomy n 0 with h | rfl | h
  · simp only [roundDiv, if_neg (by omega : ¬0 ≤ n), if_pos (by omega : 0 ≤ -n), Int.neg_neg]
  · simp [roundDiv, hzero]
  · simp only [roundDiv, if_pos (by omega : 0 ≤ n), if_neg (by omega : ¬0 ≤ -n), Int.neg_neg]

/-- The rounded quotient of a number that is not negative: nearest, a half going up. -/
theorem roundDiv_bounds {n d : Int} (hn : 0 ≤ n) (hd : 0 < d) :
    0 ≤ roundDiv n d ∧ -d < 2 * (roundDiv n d * d - n) ∧ 2 * (roundDiv n d * d - n) ≤ d := by
  rw [roundDiv_of_nonneg d hn]
  have hpos : (0 : Int) < 2 * d := by omega
  have hlow : (2 * n + d) / (2 * d) * (2 * d) ≤ 2 * n + d := Int.ediv_mul_le _ (by omega)
  have hhigh : 2 * n + d < ((2 * n + d) / (2 * d) + 1) * (2 * d) := Int.lt_ediv_add_one_mul_self _ hpos
  have hq : 0 ≤ (2 * n + d) / (2 * d) := Int.ediv_nonneg (by omega) (by omega)
  generalize (2 * n + d) / (2 * d) = q at *
  have hmul : q * (2 * d) = 2 * (q * d) := Int.mul_left_comm q 2 d
  have hsucc : (q + 1) * (2 * d) = 2 * (q * d) + 2 * d := by rw [Int.add_mul, Int.one_mul, hmul]
  omega

/-- The nearest integer, a half going away from zero, for a number that is not negative. -/
theorem roundDiv_nearest_of_nonneg {n d : Int} (hn : 0 ≤ n) (hd : 0 < d) :
    2 * (roundDiv n d * d - n).natAbs ≤ d.natAbs ∧
      (2 * (roundDiv n d * d - n).natAbs = d.natAbs → n.natAbs < (roundDiv n d * d).natAbs) := by
  obtain ⟨hq, hlow, hhigh⟩ := roundDiv_bounds hn hd
  have hprod : 0 ≤ roundDiv n d * d := Int.mul_nonneg hq (by omega)
  generalize roundDiv n d * d = p at *
  omega

theorem roundDiv_nearest (n d : Int) (hd : 0 < d) :
    2 * (roundDiv n d * d - n).natAbs ≤ d.natAbs ∧
      (2 * (roundDiv n d * d - n).natAbs = d.natAbs → n.natAbs < (roundDiv n d * d).natAbs) := by
  rcases Int.le_total 0 n with h | h
  · exact roundDiv_nearest_of_nonneg h hd
  · have hneg := roundDiv_nearest_of_nonneg (n := -n) (by omega) hd
    rw [roundDiv_neg n d hd, Int.neg_mul] at hneg
    generalize roundDiv n d * d = p at *
    omega

/-- A quotient that is at most `m` stays so when it is rounded. -/
theorem roundDiv_between {n d m : Int} (hd : 0 < d) (hn : 0 ≤ n) (hm : n ≤ m * d) : 0 ≤ roundDiv n d ∧ roundDiv n d ≤ m := by
  obtain ⟨hq, _, hhigh⟩ := roundDiv_bounds hn hd
  refine ⟨hq, ?_⟩
  refine Classical.byContradiction (fun hlt => ?_)
  have hmore : (m + 1) * d ≤ roundDiv n d * d := Int.mul_le_mul_of_nonneg_right (by omega) (by omega)
  have hexpand : (m + 1) * d = m * d + d := by rw [Int.add_mul, Int.one_mul]
  omega

/-- An interpolated component lies between its two nodes (R16). -/
theorem interpolate_between {e0 e1 f s : Int} (hf : 0 ≤ f) (hs : f < s) :
    min e0 e1 ≤ interpolate e0 e1 f s ∧ interpolate e0 e1 f s ≤ max e0 e1 := by
  simp only [interpolate]
  have hle : ∀ x : Int, 0 ≤ x → 0 ≤ x * f ∧ x * f ≤ x * s := fun x hx =>
    ⟨Int.mul_nonneg hx hf, Int.mul_le_mul_of_nonneg_left (by omega) hx⟩
  rcases Int.le_total e0 e1 with h | h
  · have hx := hle (e1 - e0) (by omega)
    have := roundDiv_between (by omega) hx.1 hx.2
    omega
  · have hx := hle (e0 - e1) (by omega)
    have hb := roundDiv_between (by omega) hx.1 hx.2
    rw [show (e1 - e0) * f = -((e0 - e1) * f) by rw [← Int.neg_mul, Int.neg_sub], roundDiv_neg _ s (by omega)]
    omega

/-! ### A READY map at a coordinate (R14 to R16) -/

theorem MapRecord.nodeAt_eq {m : MapRecord} {i : Nat} {e : MapEntry} (h : m.nodes[i]? = some e) : m.nodeAt i = e.node := by
  simp [MapRecord.nodeAt, h]

section Ready
variable {m : MapRecord} {u : Int} (hr : m.state = .ready)
include hr

theorem MapRecord.use_before {e : MapEntry} (he : m.nodes[0]? = some e) (hu : u < m.origin) : m.use u = ⟨e.node, false, true⟩ := by
  simp only [MapRecord.use, hr, MapRecord.nodeAt_eq he, if_pos (by omega : u - m.origin < 0)]
  rfl

theorem MapRecord.use_beyond (hs : 0 < m.spacing) {e : MapEntry} (he : m.nodes[m.nodes.length - 1]? = some e)
    (hu : m.origin + (m.nodes.length - 1 : Int) * m.spacing ≤ u) : m.use u = ⟨e.node, false, true⟩ := by
  obtain ⟨hlen, -⟩ := List.getElem?_eq_some_iff.1 he
  have hreach : 0 ≤ (m.nodes.length - 1 : Int) * m.spacing := Int.mul_nonneg (by omega) (by omega)
  simp only [MapRecord.use, hr, MapRecord.nodeAt_eq he, if_neg (by omega : ¬u - m.origin < 0),
    if_pos (show m.reach ≤ u - m.origin by rw [MapRecord.reach]; omega)]
  rfl

theorem MapRecord.use_inside {i : Nat} {f : Int} {e g : MapEntry} (he : m.nodes[i]? = some e) (hg : m.nodes[i + 1]? = some g)
    (hf : 0 ≤ f) (hs : f < m.spacing) (hu : u = m.origin + i * m.spacing + f) :
    m.use u = ⟨nodeBetween e.node g.node f m.spacing, false, false⟩ := by
  obtain ⟨hlen, -⟩ := List.getElem?_eq_some_iff.1 hg
  have hd : u - m.origin = f + i * m.spacing := by omega
  have hprod : 0 ≤ (i : Int) * m.spacing := Int.mul_nonneg (by omega) (by omega)
  have hreach : ((i : Int) + 1) * m.spacing ≤ m.reach :=
    Int.mul_le_mul_of_nonneg_right (by omega) (by omega)
  have hexpand : ((i : Int) + 1) * m.spacing = i * m.spacing + m.spacing := by rw [Int.add_mul, Int.one_mul]
  have hquot : (u - m.origin) / m.spacing = i := by
    rw [hd, Int.add_mul_ediv_right _ _ (by omega), Int.ediv_eq_zero_of_lt hf hs, Int.zero_add]
  have hrem : (u - m.origin) % m.spacing = f := by
    rw [hd, Int.add_mul_emod_self_right, Int.emod_eq_of_lt hf hs]
  simp only [MapRecord.use, hr, hquot, hrem, Int.toNat_natCast, MapRecord.nodeAt_eq he, MapRecord.nodeAt_eq hg,
    if_neg (by omega : ¬u - m.origin < 0), if_neg (by omega : ¬m.reach ≤ u - m.origin)]
  rfl

end Ready

theorem MapRecord.absent_use (m : MapRecord) (u : Int) : (m.use u).absent = true ↔ m.state ≠ .ready := by
  by_cases h : m.state = .ready
  · simp only [MapRecord.use, h]
    simp only [ne_eq, not_true, if_false, iff_false, Bool.not_eq_true]
    split
    · rfl
    · split <;> rfl
  · simp [m.use_of_not_ready u h, h]

/-- Settles O18: the quotient by `roundDiv_bounds`, a map's use by the interval that the coordinate lies in. -/
theorem roundingAndInterpolation : Obligations.RoundingAndInterpolation := by
  unfold Obligations.RoundingAndInterpolation
  refine ⟨fun n d hd => ?_, fun e0 e1 f s hf hs => interpolate_between hf hs, fun m u => ⟨m.use_of_not_ready u, fun hr hs => ?_⟩,
    fun d a u o mm tq => ⟨rfl, rfl, rfl, ?_⟩⟩
  · exact ⟨(roundDiv_nearest n d hd).1, (roundDiv_nearest n d hd).2, roundDiv_neg n d hd⟩
  · exact ⟨fun e he hu => MapRecord.use_before hr he hu, fun e he hu => MapRecord.use_beyond hr hs he hu,
      fun i f e g he hg hf hfs hu => MapRecord.use_inside hr he hg hf hfs hu⟩
  · simp only [CorrectionInput.flags, Device.correctionInput, Bool.or_eq_true, MapRecord.absent_use, or_assoc]

end Sys2Proof.Machine
end

section
/-! PROOFS. How a request comes into service (R186, R188), and the service of CORRECT (R5 to R7, R22 to R28, R144 to R147): O21 to
O23. -/

namespace Sys2Proof.Machine

/-! ### How a request comes into service (R186, R188) -/

theorem ArmPort.mayServe_iff (p : ArmPort) : p.mayServe = true ↔ p.transmit.length ≤ 12 := by
  simp [ArmPort.mayServe, Config.serviceLimit]

/-- Outside RUN no silence timer is restarted. -/
theorem Cell.heard_not_run (c : Cell) (a : ArmId) (h : (c.arm a).port.mode ≠ .run) : c.heard a = c := by
  refine Eq.trans (Cell.modArm_congr c a _ (fun m => m) ?_) (c.modArm_id a)
  exact if_neg h

theorem serviceEvent_arrival (a : ArmId) (r : Request) (d : Device) (hm : (d.cell.arm a).port.mode ≠ .off)
    (ht : (d.cell.arm a).port.transmit.length ≤ 12) (hq : (d.cell.arm a).port.queue = []) :
    serviceEvent a r d = serveRequest a r (d.onCell (fun c => c.heard a)) := by
  simp only [serviceEvent, Cell.isOff_of_not_off hm, (ArmPort.mayServe_iff _).2 ht, hq]
  rfl

/-- A head that may be served is taken out of the queue and served. -/
theorem Device.serveHead_cons (d : Device) (a : ArmId) {r : Request} {rest : List Request}
    (ht : (d.cell.arm a).port.transmit.length ≤ 12) (hq : (d.cell.arm a).port.queue = r :: rest) :
    d.serveHead a = serveRequest a r (d.onCell (fun c => c.popRequest a)) := by
  simp only [Device.serveHead, (ArmPort.mayServe_iff _).2 ht, hq, if_true]

theorem serviceEvent_head (a : ArmId) (r : Request) (rest : List Request) (d : Device) (hm : (d.cell.arm a).port.mode ≠ .off)
    (ht : (d.cell.arm a).port.transmit.length ≤ 12) (hq : (d.cell.arm a).port.queue = r :: rest) :
    serviceEvent a r d = serveRequest a r (d.onCell (fun c => c.popRequest a)) := by
  rw [← d.serveHead_cons a ht hq]
  simp only [serviceEvent, Cell.isOff_of_not_off hm, (ArmPort.mayServe_iff _).2 ht, hq, if_true]
  rfl

/-- Where the service of the head fills the transmit list past 12 frames, no other head is served. -/
theorem Device.serveWaiting_head (d : Device) (a : ArmId) (n : Nat) {r : Request} {rest : List Request}
    (ht : (d.cell.arm a).port.transmit.length ≤ 12) (hq : (d.cell.arm a).port.queue = r :: rest)
    (hfull : 12 < ((serveRequest a r (d.onCell (fun c => c.popRequest a))).cell.arm a).port.transmit.length) :
    Device.serveWaiting a (n + 1) d = serveRequest a r (d.onCell (fun c => c.popRequest a)) := by
  rw [Device.serveWaiting, d.serveHead_cons a ht hq]
  exact Device.serveWaiting_none _ a n (.inr hfull)

theorem Cell.popRequest_eq (c : Cell) (a : ArmId) {r : Request} {rest : List Request} (hq : (c.arm a).port.queue = r :: rest) :
    c.popRequest a = c.modArm a (fun m => { m with port := { m.port with queue := rest } }) := by
  rw [Cell.popRequest, Cell.modPort_eq]
  exact Cell.modArm_congr _ _ _ _ (by rw [hq]; rfl)

/-! ### The arm that a service finds -/

/-- The port apart, the arm that a service finds is the arm that stood. -/
theorem State.arm_atService (s : State) (a : ArmId) :
    (s.atService a).arm a = { s.dev.cell.arm a with port := ((s.atService a).arm a).port } := by
  rw [s.atService_eq]
  simp

theorem State.mode_atService (s : State) (a : ArmId) : ((s.atService a).arm a).port.mode = (s.dev.cell.arm a).port.mode := by
  simp [s.atService_eq]

theorem State.transmit_atService (s : State) (a : ArmId) :
    ((s.atService a).arm a).port.transmit = (s.dev.cell.arm a).port.transmit := by simp [s.atService_eq]

@[simp] theorem State.seq_atService (s : State) (a : ArmId) : ((s.atService a).arm a).seq = (s.dev.cell.arm a).seq := by
  rw [s.arm_atService a]

@[simp] theorem State.other_atService (s : State) (a : ArmId) : (s.atService a).arm a.other = s.dev.cell.arm a.other :=
  Cell.arm_modArm_other _ _ _

@[simp] theorem State.probe_atService (s : State) (a : ArmId) (p : Nat) : (s.atService a).probe p = s.dev.cell.probe p :=
  Cell.probe_modArm _ _ _ _

@[simp] theorem State.probes_atService (s : State) (a : ArmId) : (s.atService a).probes = s.dev.cell.probes :=
  Cell.probes_modArm _ _ _

@[simp] theorem State.bays_atService (s : State) (a : ArmId) : (s.atService a).bays = s.dev.cell.bays := Cell.bays_modArm _ _ _

/-! ### Refused CORRECTs (R6, R7) -/

theorem Cell.correctRefusal_not_run (c : Cell) (a : ArmId) (kind tip : Nat) (h : (c.arm a).port.mode ≠ .run) :
    c.correctRefusal a kind tip = some .badState := by simp [Cell.correctRefusal, h]

section Refusal
variable {c : Cell} {a : ArmId} {kind tip : Nat} (hrun : (c.arm a).port.mode = .run)
include hrun

theorem Cell.correctRefusal_ranges (h : ¬((kind = 1 ∨ kind = 2) ∧ tip ≤ 5 ∧ ¬(kind = 2 ∧ tip = 0))) :
    c.correctRefusal a kind tip = some .badArg := by
  simp only [Cell.correctRefusal, Cell.running_eq, hrun]
  simp only [show (Mode.run == Mode.run) = true from rfl, Bool.not_true, Bool.false_eq_true, if_false]
  exact if_pos (by omega)

/-- In RUN with operands in range the seated probe, the change and the tip decide (R6). -/
theorem Cell.correctRefusal_inRange (h : (kind = 1 ∨ kind = 2) ∧ tip ≤ 5 ∧ ¬(kind = 2 ∧ tip = 0)) :
    c.correctRefusal a kind tip =
      if tip ≠ 0 ∧ c.seatedProbe? a = none then some .noProbe
      else if kind = 2 ∧ (c.arm a).seq.state ≠ .idle then some .changing
      else if c.seatedTips a < tip then some .badTip
      else none := by
  simp only [Cell.correctRefusal, Cell.running_eq, hrun]
  simp only [show (Mode.run == Mode.run) = true from rfl, Bool.not_true, Bool.false_eq_true, if_false]
  exact if_neg (by omega)

theorem Cell.correctRefusal_noProbe (h : (kind = 1 ∨ kind = 2) ∧ tip ≤ 5 ∧ ¬(kind = 2 ∧ tip = 0)) (ht : tip ≠ 0)
    (hs : (c.arm a).seq.seated = .noProbe ∨ (c.arm a).seq.seated = .unknown) : c.correctRefusal a kind tip = some .noProbe := by
  have hnone : c.seatedProbe? a = none := by
    rcases hs with hs | hs <;> simp only [Cell.seatedProbe?, hs]
  rw [Cell.correctRefusal_inRange hrun h, if_pos ⟨ht, hnone⟩]

theorem Cell.correctRefusal_changing {p : Nat} (h : (kind = 1 ∨ kind = 2) ∧ tip ≤ 5 ∧ ¬(kind = 2 ∧ tip = 0))
    (hs : (c.arm a).seq.seated = .probe p) (hk : kind = 2) (hstate : (c.arm a).seq.state ≠ .idle) :
    c.correctRefusal a kind tip = some .changing := by
  have hsome : c.seatedProbe? a = some p := by simp only [Cell.seatedProbe?, hs]
  rw [Cell.correctRefusal_inRange hrun h, if_neg (by simp [hsome]), if_pos ⟨hk, hstate⟩]

/-- With a seated probe and no change in the way the tip decides. -/
theorem Cell.correctRefusal_seated {p : Nat} (h : (kind = 1 ∨ kind = 2) ∧ tip ≤ 5 ∧ ¬(kind = 2 ∧ tip = 0))
    (hs : (c.arm a).seq.seated = .probe p) (hk : kind = 1 ∨ (c.arm a).seq.state = .idle) :
    c.correctRefusal a kind tip = if (c.probe p).tips.length < tip then some .badTip else none := by
  have hsome : c.seatedProbe? a = some p := by simp only [Cell.seatedProbe?, hs]
  have htips : c.seatedTips a = (c.probe p).tips.length := by simp only [Cell.seatedTips, hsome]
  have hmay : ¬(kind = 2 ∧ (c.arm a).seq.state ≠ .idle) := by
    rintro ⟨h2, hn⟩
    exact hk.elim (fun h1 => by omega) hn
  rw [Cell.correctRefusal_inRange hrun h, if_neg (by simp [hsome]), if_neg hmay, htips]

/-- A MOVE with tip 0 is never refused in RUN. -/
theorem Cell.correctRefusal_move : c.correctRefusal a 1 0 = none := by
  rw [Cell.correctRefusal_inRange hrun (by omega), if_neg (by simp), if_neg (by simp), if_neg (by omega)]

end Refusal

theorem serveCorrect_refused {a : ArmId} {tag kind tip : Nat} {u : Point} {d : Device} {st : Status}
    (h : d.cell.correctRefusal a kind tip = some st) :
    serveCorrect a tag kind tip u d = d.onCell (fun c => c.handOver a (.correctResponse tag st Point.origin Flags.none)) := by
  simp only [serveCorrect, h]

/-- A CORRECT served in RUN and refused there. -/
theorem State.correct_refused (s : State) {a : ArmId} {tag kind tip : Nat} {u : Point} {st : Status}
    (hs : s.serves a (.correct tag kind tip u)) (h : (s.atService a).correctRefusal a kind tip = some st) :
    exec (.correct a tag kind tip u) s =
      .next (s.withCell ((s.atService a).handOver a (.correctResponse tag st Point.origin Flags.none))) :=
  (serviceEvent_serves s a _ hs).trans (congrArg (fun d => Host.Outcome.next { s with dev := d }) (serveCorrect_refused h))

/-- Settles O21: the checks of R6 in their order, and BAD_STATE in STARTING. -/
theorem refusedCorrectChangesNothing : Obligations.RefusedCorrectChangesNothing := by
  unfold Obligations.RefusedCorrectChangesNothing
  intro a tag kind tip u s m refused ranges
  refine ⟨fun hs => ?_, fun hh hm => ⟨fun hq ht => ?_, fun rest hq => ⟨fun ht => ?_, fun ht => ?_⟩⟩⟩
  · have hrun : ((s.atService a).arm a).port.mode = .run := (s.mode_atService a).trans hs.2.1
    refine ⟨fun hr => ?_, fun hr ht hseat => ?_, fun p hr hseat hk hst => ?_, fun p hr hseat hk htip => ?_⟩
    · exact s.correct_refused hs (Cell.correctRefusal_ranges hrun hr)
    · exact s.correct_refused hs (Cell.correctRefusal_noProbe hrun hr ht (by simpa using hseat))
    · exact s.correct_refused hs (Cell.correctRefusal_changing hrun hr (by simpa using hseat) hk (by simpa using hst))
    · refine s.correct_refused hs ?_
      rw [Cell.correctRefusal_seated hrun hr (by simpa using hseat) (by simpa using hk), if_pos (by simpa using htip)]
  · have hoff : (s.dev.cell.arm a).port.mode ≠ .off := by simp [show (s.dev.cell.arm a).port.mode = .starting from hm]
    have hrun : (s.dev.cell.arm a).port.mode ≠ .run := by simp [show (s.dev.cell.arm a).port.mode = .starting from hm]
    refine (s.event_live _ hh).trans ?_
    rw [serviceEvent_arrival a _ s.dev hoff ht hq, s.dev.onCell_id _ (s.dev.cell.heard_not_run a hrun)]
    exact congrArg (fun d => Host.Outcome.next { s with dev := d })
      (serveCorrect_refused (Cell.correctRefusal_not_run _ _ _ _ hrun))
  · have hoff : (s.dev.cell.arm a).port.mode ≠ .off := by simp [show (s.dev.cell.arm a).port.mode = .starting from hm]
    refine (s.event_live _ hh).trans ?_
    rw [serviceEvent_head a _ rest s.dev hoff ht hq,
      show s.dev.onCell (fun c => c.popRequest a) = _ from congrArg (fun c => { s.dev with cell := c }) (s.dev.cell.popRequest_eq a hq)]
    refine congrArg (fun d => Host.Outcome.next { s with dev := d })
      (serveCorrect_refused (Cell.correctRefusal_not_run _ _ _ _ ?_))
    simp [show (s.dev.cell.arm a).port.mode = .starting from hm]
  · refine (s.event_live _ hh).trans ?_
    let d := s.dev.onCell (fun c => c.modPort a ArmPort.frameSent)
    have hlen : (d.cell.arm a).port.transmit.length = 12 := by
      simp [d, ArmPort.frameSent, show (s.dev.cell.arm a).port.transmit.length = 13 from ht]
    have hhead : (d.cell.arm a).port.queue = .correct tag kind tip u :: rest := by
      simpa [d, ArmPort.frameSent] using hq
    have hserve : serveRequest a (.correct tag kind tip u) (d.onCell (fun c => c.popRequest a)) =
        (d.onCell (fun c => c.popRequest a)).onCell
          (fun c => c.handOver a (.correctResponse tag .badState Point.origin Flags.none)) := by
      refine serveCorrect_refused (Cell.correctRefusal_not_run _ _ _ _ ?_)
      simp [d, Cell.popRequest, ArmPort.frameSent, show (s.dev.cell.arm a).port.mode = .starting from hm]
    have hfull : 12 < ((serveRequest a (.correct tag kind tip u) (d.onCell (fun c => c.popRequest a))).cell.arm a).port.transmit.length := by
      rw [hserve]
      simp [Cell.popRequest, ArmPort.handOver_room, hlen]
    rw [show Config.requestRoom = 3 + 1 from rfl, d.serveWaiting_head a 3 (by omega) hhead hfull, hserve]
    refine congrArg (fun c => Host.Outcome.next (s.withCell c)) ?_
    simp only [Device.cell_onCell, Cell.popRequest_eq _ a hhead]
    simp only [d, Device.cell_onCell, Cell.modPort_eq, Cell.modArm_modArm, ArmPort.frameSent]
    rfl

end Sys2Proof.Machine
end

section
/-! PROOFS. Touches, samples and rack boxes, and the served CORRECT (R22 to R28, R141 to R147): O22 and O23. -/

namespace Sys2Proof.Machine

/-! ### A touch and its tip (R25, R26) -/

theorem Tip.touched_box (t : Tip) (limit : Nat) : (t.touched limit).box = t.box := rfl

/-- The probe box is made of the boxes of the tips (R93). -/
theorem tipsBox_congr {l l' : List Tip} (h : l.map Tip.box = l'.map Tip.box) : tipsBox l = tipsBox l' := by
  cases l with
  | nil => cases l' with
    | nil => rfl
    | cons t ts => simp at h
  | cons t ts => cases l' with
    | nil => simp at h
    | cons u us =>
      simp only [List.map_cons, List.cons.injEq] at h
      have hfold : ∀ (l : List Tip) (b : Box), l.foldl (fun b u => b.hull u.box) b = (l.map Tip.box).foldl Box.hull b :=
        fun l b => List.foldl_map.symm
      simp only [tipsBox, hfold, h.1, h.2]

theorem map_changeNth {α β : Type} (g : α → β) (l : List α) (k : Nat) (f : α → α) (h : ∀ x, g (f x) = g x) :
    (changeNth l k f).map g = l.map g := by
  cases k with
  | zero => rfl
  | succ i =>
    refine List.ext_getElem? (fun j => ?_)
    simp only [changeNth, List.getElem?_map, List.getElem?_modify]
    cases l[j]? with
    | none => rfl
    | some x =>
      simp only [Option.map_some]
      split
      · exact congrArg some (h x)
      · rfl

/-- A probe record after a touch of tip `t` (R25, R26). -/
def Probe.touch (p : Probe) (t : Nat) : Probe := { p with tips := changeNth p.tips t (fun x => x.touched p.touchLimit) }

theorem Probe.box_touch (p : Probe) (t : Nat) : (p.touch t).box = p.box :=
  tipsBox_congr (map_changeNth Tip.box p.tips t _ (fun x => x.touched_box _))

/-- What a counted touch does to the probes: the touched record, or nothing without such a tip. -/
theorem Cell.probes_countTouch (c : Cell) (p t : Nat) :
    (c.countTouch p t).probes = c.probes ∨ (c.countTouch p t).probes = c.probes.set p ((c.probe p).touch t) := by
  simp only [Cell.countTouch]
  split
  · exact .inl rfl
  · split <;> exact .inr rfl

theorem Cell.box_countTouch (c : Cell) (p t q : Nat) : ((c.countTouch p t).probe q).box = (c.probe q).box := by
  simp only [Cell.probe]
  rcases c.probes_countTouch p t with h | h
  · rw [h]
  · rw [h]
    by_cases hq : q = p
    · subst hq
      by_cases hr : 1 ≤ q ∧ q ≤ 40
      · rw [Table.get_set_same _ _ _ _ hr.1 hr.2]
        exact Probe.box_touch _ t
      · rw [Table.get_outside _ _ _ (by omega), Table.get_outside _ _ _ (by omega)]
    · rw [Table.get_set_other _ _ _ _ _ hq]

@[simp] theorem Cell.arm_countTouch (c : Cell) (p t : Nat) (a : ArmId) : (c.countTouch p t).arm a = c.arm a := by
  simp only [Cell.countTouch]
  split
  · rfl
  · split
    · rw [Cell.arm_addNotice, Cell.arm_modProbe]
    · rw [Cell.arm_modProbe]

@[simp] theorem Cell.bays_countTouch (c : Cell) (p t : Nat) : (c.countTouch p t).bays = c.bays := by
  simp only [Cell.countTouch]
  split
  · rfl
  · split <;> rfl

/-- A counted touch of a tip that exists. -/
theorem Cell.countTouch_eq (c : Cell) {p t : Nat} {tip : Tip} (h : nth (c.probe p).tips t = some tip) :
    c.countTouch p t =
      if tip.becomesDue (c.probe p).touchLimit = true then (c.modProbe p (fun r => r.touch t)).addNotice (.tipDue p t)
      else c.modProbe p (fun r => r.touch t) := by
  simp only [Cell.countTouch, h]
  rfl

theorem Tip.becomesDue_iff (t : Tip) (limit : Nat) :
    t.becomesDue limit = true ↔ limit ≠ 0 ∧ limit ≤ t.counted ∧ (t.state = .qualified ∨ t.state = .drifted) := by
  simp [Tip.becomesDue, and_assoc]

/-- Settles O23: one tip is touched, and TIP_DUE is added when it becomes DUE. -/
theorem touchCountsItsTip : Obligations.TouchCountsItsTip := by
  unfold Obligations.TouchCountsItsTip
  intro c p t tip h1 h40 htip n due
  have hdue : tip.becomesDue (c.probe p).touchLimit = true ↔ due := Tip.becomesDue_iff _ _
  have hprobe : (c.countTouch p t).probe p = (c.probe p).touch t := by
    rw [c.countTouch_eq htip]
    split
    · rw [Cell.probe_addNotice, Cell.probe_modProbe_same _ _ _ h1 h40]
    · rw [Cell.probe_modProbe_same _ _ _ h1 h40]
  rw [hprobe]
  refine ⟨?_, fun j hj => nth_changeNth_other _ _ _ _ hj, rfl, ?_⟩
  · rw [Probe.touch, nth_changeNth_same _ _ _ _ htip]
    simp only [Tip.touched, hdue]
    rfl
  · rw [c.countTouch_eq htip]
    simp only [hdue]
    split <;> rfl

/-! ### Rack boxes (R141, R145, R146) -/

theorem Arm.rackBox_eq (m : Arm) (b : Nat) :
    m.rackBox b = if b = 0 then some m.settings.staging else (nth m.rack.ports b).map (fun y => y.box) := by
  cases b <;> simp [Arm.rackBox, nth]

theorem Arm.isOpen_iff (m : Arm) (b : Nat) :
    m.isOpen b = true ↔ m.seq.state.opensBox b ∨ (m.seq.state.inCycle = false ∧ b ∈ m.exitSet) := by
  simp [Arm.isOpen, SeqState.mem_opens]

theorem Arm.lt_of_insideRackBox {m : Arm} {b : Nat} {u : Point} (h : m.insideRackBox b u = true) : b < m.portCount + 1 := by
  rw [Arm.insideRackBox_iff] at h
  obtain ⟨box, hbox, -⟩ := h
  cases b with
  | zero => omega
  | succ k =>
    have hsome : (m.rack.ports[k]?).map (fun y => y.box) = some box := by simpa [nth] using hbox
    obtain ⟨x, hx, -⟩ := Option.map_eq_some_iff.1 hsome
    obtain ⟨hlt, -⟩ := List.getElem?_eq_some_iff.1 hx
    simp only [Arm.portCount]
    omega

/-- The closed rack boxes that hold a position. -/
theorem Arm.mem_closedBoxesAt (m : Arm) (b : Nat) (u : Point) : b ∈ m.closedBoxesAt u ↔ m.inBox b u ∧ m.isOpen b = false := by
  simp only [Arm.closedBoxesAt, Arm.rackBoxNumbers, List.mem_filter, List.mem_range, Bool.and_eq_true, Bool.not_eq_true',
    ← Arm.insideRackBox_iff]
  exact ⟨fun h => ⟨h.2.2, h.2.1⟩, fun h => ⟨Arm.lt_of_insideRackBox h.1, h.2, h.1⟩⟩

theorem Arm.takeSample_inCycle {m : Arm} (u : Point) (h : m.seq.state.inCycle = true) :
    m.takeSample u = { m with lastSample := some u } := if_pos h

/-- The exit set after a sample outside CYCLE that is not the first (R146). -/
theorem Arm.mem_exitSet_takeSample {m : Arm} (b : Nat) (u : Point) (h : m.seq.state.inCycle = false) (hl : m.lastSample ≠ none) :
    b ∈ (m.takeSample u).exitSet ↔ b ∈ m.exitSet ∧ m.inBox b u := by
  simp only [Arm.takeSample, h, if_neg hl, Bool.false_eq_true, if_false, Arm.keptExits, List.mem_filter, Arm.insideRackBox_iff]

/-- The exit set after the first sample, outside CYCLE (R146). -/
theorem Arm.mem_exitSet_firstSample {m : Arm} (b : Nat) (u : Point) (h : m.seq.state.inCycle = false) (hl : m.lastSample = none) :
    b ∈ (m.takeSample u).exitSet ↔ m.inBox b u ∧ (b ∈ m.exitSet ∨ ¬m.seq.state.opensBox b) := by
  simp only [Arm.takeSample, h, hl, if_true, Bool.false_eq_true, if_false, List.mem_append, Arm.mem_closedBoxesAt,
    ← Bool.not_eq_true, Arm.isOpen_iff, Arm.keptExits, List.mem_filter, Arm.insideRackBox_iff]
  rw [show ({ m with exitSet := m.exitSet.filter (fun b => m.insideRackBox b u), lastSample := some u } : Arm).inBox b u ↔
    m.inBox b u from Iff.rfl]
  grind

/-! ### What the tests of a sample look at -/

/-- The port of an arm takes no part in its samples. -/
theorem Arm.takeSample_port (m : Arm) (p : ArmPort) (u : Point) :
    ({ m with port := p } : Arm).takeSample u = { m.takeSample u with port := p } := by
  simp only [Arm.takeSample]
  split
  · rfl
  · split <;> rfl

/-- The bays, the settings, the seated field and the probe boxes decide what an arm needs (R159, R171). -/
theorem Cell.missingAt_congr {c c' : Cell} {a : ArmId} (u : Point) (hb : c'.bays = c.bays)
    (hs : (c'.arm a).settings = (c.arm a).settings) (hseat : (c'.arm a).seq.seated = (c.arm a).seq.seated)
    (hbox : ∀ p, (c'.probe p).box = (c.probe p).box) : c'.missingAt a u = c.missingAt a u := by
  have hused : c'.usedBox a = c.usedBox a := by
    simp only [Cell.usedBox, hseat]
    cases (c.arm a).seq.seated with
    | noProbe => rfl
    | unknown => exact congrArg ArmSettings.unknownBox hs
    | probe p => exact hbox p
  simp only [Cell.missingAt, Cell.needs, hb, hs, hused]

/-- A sample that meets no closed box and no missing bay is taken, and nothing else happens. -/
theorem Cell.handSample_clear {c : Cell} {a : ArmId} {u : Point} (hbox : ((c.arm a).takeSample u).closedBoxesAt u = [])
    (hbay : c.missingAt a u = []) : c.handSample a u = c.modArm a (fun m => m.takeSample u) := by
  have hrack : (c.modArm a (fun m => m.takeSample u)).rackTest a u = c.modArm a (fun m => m.takeSample u) := by
    simp only [Cell.rackTest, Cell.arm_modArm_same, hbox]
  have hmissing : (c.modArm a (fun m => m.takeSample u)).missingAt a u = [] := by
    refine (Cell.missingAt_congr (c := c) u (by simp) ?_ ?_ (fun p => by simp)).trans hbay <;>
      rw [Cell.arm_modArm_same, Arm.takeSample_eq]
  simp only [Cell.handSample, hrack, bayTest, hmissing]

/-! ### The served CORRECT -/

/-- The inputs of a CORRECT as the service finds them are those of the part that stood. -/
theorem State.correctionInput_atService (s : State) (a : ArmId) (u o : Point) :
    (s.dev.onCell (fun _ => s.atService a)).correctionInput a u o = s.dev.correctionInput a u o := by
  have harm := s.arm_atService a
  simp only [Device.correctionInput, Device.cell_onCell]
  rw [harm]
  rfl

/-- The probe table counts a TOUCH of a seated probe, and nothing else. -/
def Cell.countedTouch (c : Cell) (a : ArmId) (kind tip : Nat) (d : Cell) : Cell :=
  match (c.arm a).seq.seated with
  | .probe p => if kind = 2 then d.countTouch p tip else d
  | _ => d

theorem Cell.countIfTouch_eq {c d : Cell} {a : ArmId} (kind tip : Nat) (h : (d.arm a).seq.seated = (c.arm a).seq.seated) :
    d.countIfTouch a kind tip = c.countedTouch a kind tip d := by
  simp only [Cell.countIfTouch, Cell.countedTouch, Cell.seatedProbe?, h]
  cases (c.arm a).seq.seated <;> rfl

@[simp] theorem Cell.arm_countedTouch (c d : Cell) (a b : ArmId) (kind tip : Nat) : (c.countedTouch a kind tip d).arm b = d.arm b := by
  simp only [Cell.countedTouch]
  split
  · split <;> simp
  · rfl

@[simp] theorem Cell.bays_countedTouch (c d : Cell) (a : ArmId) (kind tip : Nat) : (c.countedTouch a kind tip d).bays = d.bays := by
  simp only [Cell.countedTouch]
  split
  · split <;> simp
  · rfl

theorem Cell.box_countedTouch (c d : Cell) (a : ArmId) (kind tip q : Nat) :
    ((c.countedTouch a kind tip d).probe q).box = (d.probe q).box := by
  simp only [Cell.countedTouch]
  split
  · split
    · exact d.box_countTouch _ _ q
    · rfl
  · rfl

/-- A served CORRECT: the response, the touch and the sample, in that order (R22, R25, R28). -/
theorem State.correct_handed (s : State) {a : ArmId} {tag kind tip : Nat} {u o : Point} {notQualified : Bool}
    (hs : s.serves a (.correct tag kind tip u)) (hpass : (s.atService a).correctRefusal a kind tip = none)
    (ho : (s.atService a).activeOffset a tip = o) (hq : (s.atService a).tipNotQualified a tip = notQualified) :
    exec (.correct a tag kind tip u) s =
      .next (s.withCell ((s.dev.cell.countedTouch a kind tip ((s.atService a).handOver a
          (.correctResponse tag .ok (s.dev.correctionInput a u o).compute.q
            ((s.dev.correctionInput a u o).flags (s.dev.cell.arm a).mismatch notQualified)))).handSample a u)) := by
  have hmismatch : ((s.atService a).arm a).mismatch = (s.dev.cell.arm a).mismatch := by rw [s.arm_atService a]
  have hresponse : (s.dev.onCell (fun _ => s.atService a)).correctResponse a tag tip u =
      .correctResponse tag .ok (s.dev.correctionInput a u o).compute.q
        ((s.dev.correctionInput a u o).flags (s.dev.cell.arm a).mismatch notQualified) := by
    simp only [Device.correctResponse, Device.cell_onCell, ho, hq, s.correctionInput_atService, hmismatch]
  have hserve : serveRequest a (.correct tag kind tip u) (s.dev.onCell (fun _ => s.atService a)) =
      { s.dev with cell := (((s.atService a).handOver a ((s.dev.onCell (fun _ => s.atService a)).correctResponse a tag tip u)).countIfTouch
        a kind tip).handSample a u } := by
    simp only [serveRequest, serveCorrect, Device.cell_onCell, hpass]
    rfl
  refine (serviceEvent_serves s a _ hs).trans ?_
  rw [hserve, hresponse, Cell.countIfTouch_eq (c := s.dev.cell) kind tip (by simp)]
  rfl

/-- The arm of a served CORRECT when its sample is handed on. -/
theorem State.arm_countedTouch (s : State) (a : ArmId) (kind tip : Nat) (f : TxFrame) :
    (s.dev.cell.countedTouch a kind tip ((s.atService a).handOver a f)).arm a =
      { s.dev.cell.arm a with port := ((s.atService a).arm a).port.handOver f } := by
  rw [Cell.arm_countedTouch, Cell.handOver_eq, Cell.arm_modArm_same]
  rw [s.arm_atService a]

/-- The bays that a sample misses are those that it misses before the CORRECT is served. -/
theorem State.missingAt_countedTouch (s : State) (a : ArmId) (kind tip : Nat) (f : TxFrame) (u : Point) :
    (s.dev.cell.countedTouch a kind tip ((s.atService a).handOver a f)).missingAt a u = s.dev.cell.missingAt a u := by
  have harm := s.arm_countedTouch a kind tip f
  refine Cell.missingAt_congr u (by simp) ?_ ?_ (fun p => ?_)
  · rw [harm]
  · rw [harm]
  · rw [Cell.box_countedTouch]
    simp

/-- A served CORRECT whose sample meets nothing: the response, the touch and the sample (R22, R25, R28). -/
theorem State.correct_served (s : State) {a : ArmId} {tag kind tip : Nat} {u o : Point} {notQualified : Bool}
    (hs : s.serves a (.correct tag kind tip u)) (hpass : (s.atService a).correctRefusal a kind tip = none)
    (ho : (s.atService a).activeOffset a tip = o) (hq : (s.atService a).tipNotQualified a tip = notQualified)
    (hbox : ((s.dev.cell.arm a).takeSample u).closedBoxesAt u = []) (hbay : s.dev.cell.missingAt a u = []) :
    exec (.correct a tag kind tip u) s =
      .next (s.withCell ((s.dev.cell.countedTouch a kind tip ((s.atService a).handOver a
          (.correctResponse tag .ok (s.dev.correctionInput a u o).compute.q
            ((s.dev.correctionInput a u o).flags (s.dev.cell.arm a).mismatch notQualified)))).modArm a
        (fun x => { x with lastSample := some u, exitSet := ((s.dev.cell.arm a).takeSample u).exitSet }))) := by
  refine (s.correct_handed hs hpass ho hq).trans (congrArg (fun c => Host.Outcome.next (s.withCell c)) ?_)
  generalize TxFrame.correctResponse tag .ok (s.dev.correctionInput a u o).compute.q
    ((s.dev.correctionInput a u o).flags (s.dev.cell.arm a).mismatch notQualified) = f
  have harm := s.arm_countedTouch a kind tip f
  rw [Cell.handSample_clear]
  · refine Cell.modArm_congr _ _ _ _ ?_
    rw [harm, Arm.takeSample_port, Arm.takeSample_eq]
  · rw [harm, Arm.takeSample_port]
    exact hbox
  · exact (s.missingAt_countedTouch a kind tip f u).trans hbay

/-- Settles O22: the served CORRECT by `State.correct_served`; the rack boxes and the exit set by the lemmas on them. -/
theorem servedCorrectAnswersAndBecomesTheLastSample : Obligations.ServedCorrectAnswersAndBecomesTheLastSample := by
  unfold Obligations.ServedCorrectAnswersAndBecomesTheLastSample
  refine ⟨fun a tag kind tip u o notQualified s hs => ?_, fun m b u => ?_⟩
  · intro m after counted hbox hbay hcase i
    refine ⟨?_, ?_, fun hcycle => ?_⟩
    · have hrun : ((s.atService a).arm a).port.mode = .run := (s.mode_atService a).trans hs.2.1
      rcases hcase with ⟨rfl, rfl, rfl, rfl⟩ | ⟨p, t, hseat, hkind, h1, h5, htip, rfl, rfl⟩
      · have hnone : (s.atService a).activeTip a 0 = none := by
          simp only [Cell.activeTip]
          split <;> rfl
        refine s.correct_served hs (Cell.correctRefusal_move hrun) ?_ ?_ hbox hbay
        · simp only [Cell.activeOffset, hnone]
          rfl
        · simp only [Cell.tipNotQualified, hnone]
      · have hseated : ((s.atService a).arm a).seq.seated = .probe p := by simpa using hseat
        have hactive : (s.atService a).activeTip a tip = some t := by
          simp only [Cell.activeTip, Cell.seatedProbe?, hseated, State.probe_atService]
          exact htip
        have hlen : tip ≤ (s.dev.cell.probe p).tips.length := by
          obtain ⟨k, rfl⟩ : ∃ k, tip = k + 1 := ⟨tip - 1, by omega⟩
          obtain ⟨hlt, -⟩ := List.getElem?_eq_some_iff.1 htip
          omega
        refine s.correct_served hs ?_ ?_ ?_ hbox hbay
        · rw [Cell.correctRefusal_seated hrun (by omega) hseated (by simpa using hkind.imp_right (fun h => h.2)),
            if_neg (by rw [State.probe_atService]; omega)]
        · simp only [Cell.activeOffset, hactive]
        · simp only [Cell.tipNotQualified, hactive]
    · simp only [after]
      rw [Arm.takeSample_eq]
    · simp only [after]
      rw [Arm.takeSample_inCycle u hcycle]
  · exact ⟨m.isOpen_iff b, m.rackBox_eq b, m.mem_closedBoxesAt b u, m.takeSample_eq u, fun hc =>
      ⟨fun hl => Arm.mem_exitSet_takeSample b u hc hl, fun hl => Arm.mem_exitSet_firstSample b u hc hl⟩⟩

end Sys2Proof.Machine
end

section
/-! PROOFS. The commands of the sensor bus and the choice of the next node (R48 to R56, R64, R67): O24 to O27. -/

namespace Sys2Proof.Machine

/-! ### Operands and answers, as the statements write them -/

/-- The status of a command by a proposition that says that no value was clamped (R195). -/
theorem clampStatus_number_of_iff {b : Bool} {P : Prop} [Decidable P] (h : b = false ↔ P) :
    (clampStatus b).number = if P then 0 else 1 := by
  rw [clampStatus_number]
  by_cases hp : P
  · rw [if_pos hp, h.2 hp]; rfl
  · rw [if_neg hp, if_pos (by simpa using fun hb => hp (h.1 hb))]

/-! ### The configured nodes (R51) -/

/-- No configured node carries an address. -/
theorem Bus.nodeAt_eq_none_iff (b : Bus) (address : Nat) :
    b.nodeAt address = none ↔ ∀ n ∈ b.nodes.val, n.state ≠ .unused → n.address ≠ address := by
  simp only [Bus.nodeAt, Option.map_eq_none_iff, List.find?_eq_none]
  constructor
  · intro h n hn hused hadd
    obtain ⟨k, h1, h16, hk⟩ := b.nodes.exists_get_of_mem n Node.reset hn
    exact h (k, n) ((b.nodes.mem_numbered k n Node.reset).2 ⟨h1, h16, hk⟩) (by simp [hused, hadd])
  · rintro h ⟨k, n⟩ hn
    obtain ⟨h1, h16, hk⟩ := (b.nodes.mem_numbered k n Node.reset).1 hn
    rcases b.nodes.get_mem k Node.reset with hr | hr
    · rw [hk] at hr
      simp [hr, Node.reset]
    · rw [hk] at hr
      simpa using h n hr

/-! ### The next node (R56, R61) -/

/-- Folding a choice between two values, each time for the one that `r` prefers, picks a value of the list that `r` prefers to all. -/
theorem foldl_pick_spec {α : Type} (r : α → α → Prop) (pick : α → α → α) (htrans : ∀ x y z, r x y → r y z → r x z)
    (hrefl : ∀ x, r x x) (hpick : ∀ x y, (pick x y = x ∨ pick x y = y) ∧ r (pick x y) x ∧ r (pick x y) y) (l : List α) (m : α) :
    l.foldl pick m ∈ m :: l ∧ ∀ y ∈ m :: l, r (l.foldl pick m) y := by
  induction l generalizing m with
  | nil => simp [hrefl]
  | cons y ys ih =>
    obtain ⟨hmem, hall⟩ := ih (pick m y)
    obtain ⟨hone, hm, hy⟩ := hpick m y
    simp only [List.mem_cons, forall_eq_or_imp, List.foldl_cons] at hmem hall ⊢
    refine ⟨?_, htrans _ _ _ hall.1 hm, htrans _ _ _ hall.1 hy, hall.2⟩
    rcases hmem with hmem | hmem
    · rw [hmem]
      exact hone.imp_right .inl
    · exact .inr (.inr hmem)

theorem lowest_spec {l : List Nat} {x : Nat} (h : lowest l = some x) : x ∈ l ∧ ∀ y ∈ l, x ≤ y := by
  cases l with
  | nil => simp [lowest] at h
  | cons z zs =>
    simp only [lowest, Option.some.injEq] at h
    subst h
    exact foldl_pick_spec (· ≤ ·) min (fun _ _ _ => Nat.le_trans) Nat.le_refl (fun x y => by omega) zs z

theorem lowest_eq_none {l : List Nat} : lowest l = none ↔ l = [] := by cases l <;> simp [lowest]

theorem Bus.due_iff (b : Bus) (n : Node) :
    b.due n = true ↔ n.state = .online ∨ n.state = .rejoining ∨ (n.state = .offline ∧ 2 ^ b.rejoin ∣ b.cycleNumber.toNat) := by
  simp only [Bus.due, Nat.dvd_iff_mod_eq_zero]
  cases n.state <;> simp

theorem Bus.mem_candidates (b : Bus) (n : Node) :
    n ∈ b.nodes.val.filter (fun n => decide (b.lastPolled < n.address) && b.due n) ↔
      n ∈ b.nodes.val ∧ b.lastPolled < n.address ∧
        (n.state = .online ∨ n.state = .rejoining ∨ (n.state = .offline ∧ 2 ^ b.rejoin ∣ b.cycleNumber.toNat)) := by
  simp only [List.mem_filter, Bool.and_eq_true, decide_eq_true_eq, Bus.due_iff]

/-- Settles O27: the lowest address of the candidates is the next one; without candidates the open slot begins. -/
theorem nextNodeIsTheLowestDueAddress : Obligations.NextNodeIsTheLowestDueAddress := by
  unfold Obligations.NextNodeIsTheLowestDueAddress
  intro b due
  have hmem : ∀ n, n ∈ b.nodes.val.filter (fun n => decide (b.lastPolled < n.address) && b.due n) ↔ n ∈ b.nodes.val ∧ due n :=
    b.mem_candidates
  refine ⟨fun ⟨m, hm, hdue⟩ => ?_, fun hnone => ?_⟩
  · cases hnext : b.nextAddress with
    | none =>
      rw [Bus.nextAddress, lowest_eq_none, List.map_eq_nil_iff] at hnext
      exact absurd ((hmem m).2 ⟨hm, hdue⟩) (by simp [hnext])
    | some address =>
      obtain ⟨haddress, hlow⟩ := lowest_spec hnext
      obtain ⟨n, hn, rfl⟩ := List.mem_map.1 haddress
      refine ⟨n, ((hmem n).1 hn).1, ((hmem n).1 hn).2, fun k hk hd => ?_, ?_⟩
      · exact hlow _ (List.mem_map_of_mem ((hmem k).2 ⟨hk, hd⟩))
      · simp only [Bus.chooseNext, hnext]
        rfl
  · have hnext : b.nextAddress = none := by
      rw [Bus.nextAddress, lowest_eq_none, List.map_eq_nil_iff, List.eq_nil_iff_forall_not_mem]
      exact fun n hn => hnone n ((hmem n).1 hn).1 ((hmem n).1 hn).2
    simp only [Bus.chooseNext, hnext]

section ChooseNext
variable (b : Bus)

@[simp] theorem Bus.nodes_chooseNext : b.chooseNext.nodes = b.nodes := by simp only [Bus.chooseNext]; split <;> rfl
@[simp] theorem Bus.cycleNumber_chooseNext : b.chooseNext.cycleNumber = b.cycleNumber := by
  simp only [Bus.chooseNext]; split <;> rfl
@[simp] theorem Bus.periodTimer_chooseNext : b.chooseNext.periodTimer = b.periodTimer := by
  simp only [Bus.chooseNext]; split <;> rfl

theorem Bus.phase_chooseNext : b.chooseNext.phase ≠ .between := by
  simp only [Bus.chooseNext]; split <;> simp

end ChooseNext

theorem Bus.driverEnabled_iff (b : Bus) : b.driverEnabled = true ↔ b.state = .run := by simp [Bus.driverEnabled]

/-! ### The commands (R48 to R53, R64, R67) -/

/-- Settles O24: BUS_SET, BUS_DISABLE and ANNOUNCE_CLEAR. -/
theorem busSetBusDisableAnnounceClear : Obligations.BusSetBusDisableAnnounceClear := by
  unfold Obligations.BusSetBusDisableAnnounceClear
  refine ⟨fun period timeout short long rejoin s ht => ?_, fun s ht => ⟨?_, ?_⟩⟩
  · intro p t h l r
    have hp : clampNat 100 5000 period = p := clampNat_eq _ _ _ (by decide)
    have htime : clampNat 2 50 timeout = t := clampNat_eq _ _ _ (by decide)
    have hshort : clampNat 0 3 short = h := clampNat_zero _ _
    have hlong : clampNat 1 15 long = l := clampNat_eq _ _ _ (by decide)
    have hrejoin : clampNat 0 6 rejoin = r := clampNat_zero _ _
    refine s.command_answers 261 7 _ _ ht _
      (clampStatus (p != period || t != timeout || h != short || l != long || r != rejoin)) _ ?_ ?_
    · simp only [serveBusSet, hp, htime, hshort, hlong, hrejoin, Device.bus_onBus]
      rfl
    · exact clampStatus_number_of_iff (by simp [and_assoc])
  · exact s.command_answers 1028 2 0 _ ht _ .ok _ rfl rfl
  · exact s.command_answers 1035 2 0 _ ht _ .ok _ rfl rfl

/-- Settles O25: NODE_ADD and NODE_REMOVE where their checks pass. -/
theorem nodeAddAndNodeRemove : Obligations.NodeAddAndNodeRemove := by
  unfold Obligations.NodeAddAndNodeRemove
  refine ⟨fun node address channels s ht h1 h16 ha1 ha62 hc1 hc4 hunused hfree => ?_, fun node s ht h1 h16 hused hnamed => ?_⟩
  · have hnone : s.dev.bus.addressTaken address = false := by
      rw [Bus.addressTaken, (s.dev.bus.nodeAt_eq_none_iff address).2 hfree]
      rfl
    refine s.command_answers 262 5 0 _ ht _ .ok _ ?_ rfl
    simp only [serveNodeAdd, (numberOk_iff 16 node).2 ⟨h1, h16⟩, (numberOk_iff 62 address).2 ⟨ha1, ha62⟩,
      (numberOk_iff 4 channels).2 ⟨hc1, hc4⟩, Device.bus_clocked, hunused, hnone]
    rfl
  · intro removed
    have hno : (s.dev.clocked 3).nodeNamed node = false := by
      simpa [Device.nodeNamed] using hnamed
    refine s.command_answers 263 3 0 _ ht _ .ok _ ?_ rfl
    simp only [serveNodeRemove, (numberOk_iff 16 node).2 ⟨h1, h16⟩, Device.bus_clocked, hused, hno]
    rfl

/-- Settles O26: BUS_ENABLE and BUS_RECOVER by the state of the bus. -/
theorem busEnableAndBusRecover : Obligations.BusEnableAndBusRecover := by
  unfold Obligations.BusEnableAndBusRecover
  intro s ht
  refine ⟨fun hoff => ⟨_, ?_, rfl, ?_, ?_, ?_, Bus.phase_chooseNext _, ?_, fun k => ?_⟩, fun hoff => ?_,
    fun hfault hline => ⟨_, ?_, rfl, ?_, ?_⟩, fun hfault hline => ?_, fun hfault => ?_, Bus.driverEnabled_iff⟩
  · refine s.command_answers 1027 2 0 _ ht _ .ok _ ?_ rfl
    simp only [serveBusEnable, Device.bus_clocked, hoff]
    rfl
  · simp
  · simp
  · simp
  · simp [Bus.driverEnabled]
  · simp only [Bus.node, Bus.nodes_chooseNext]
    exact s.dev.bus.nodes.get_map Node.rejoin k Node.reset
  · refine s.command_leaves 1027 2 8 _ ht .badState [] ?_ rfl
    simp only [serveBusEnable, Device.bus_clocked]
    exact if_pos hoff
  · refine s.command_answers 1029 2 0 _ ht _ .ok _ ?_ rfl
    simp only [serveBusRecover, Device.bus_clocked]
    exact (if_neg (Classical.not_not.2 hfault)).trans (if_neg (by simp [hline]))
  · simp [Bus.driverEnabled]
  · simp
  · refine s.command_leaves 1029 2 32 _ ht .stillStuck [] ?_ rfl
    simp only [serveBusRecover, Device.bus_clocked, hfault, hline]
    rfl
  · refine s.command_leaves 1029 2 31 _ ht .notFaulted [] ?_ rfl
    simp only [serveBusRecover, Device.bus_clocked]
    exact if_pos hfault

end Sys2Proof.Machine
end

section
/-! PROOFS. The events of the sensor bus (R55 to R66): O28 to O31. -/

namespace Sys2Proof.Machine

/-! ### Expiries and the open slot (R55, R61) -/

/-- An evaluation leaves the bus, and sees nothing of it. -/
theorem Device.evaluate_withBus (d : Device) (b : Bus) :
    ({ d with bus := b } : Device).evaluate = { d.evaluate with bus := b } := by
  have h := d.evaluate_onBus (fun _ => b)
  exact h

theorem Device.bus_evaluate (d : Device) : d.evaluate.bus = d.bus := d.evaluates_evaluate.bus

/-- Settles O28: the poll period by the state and phase of the bus; the end of a slot. -/
theorem pollPeriodExpiryAndSlotEnd : Obligations.PollPeriodExpiryAndSlotEnd := by
  unfold Obligations.PollPeriodExpiryAndSlotEnd
  refine ⟨fun s hh htimer => ?_, fun s hh htimer => ?_⟩
  · intro b
    have hexpiry : exec .pollPeriodExpiry s = .next { s with dev := s.dev.pollPeriodExpiry } := s.event_live _ hh
    refine ⟨fun hrun hphase => ?_, fun hrun hphase => ?_, fun hrun => ⟨?_, Device.bus_evaluate _⟩⟩
    · rw [hexpiry]
      simp only [Device.pollPeriodExpiry, htimer, if_true, Device.bus_onBus, hrun, hphase]
      rfl
    · rw [hexpiry]
      simp only [Device.pollPeriodExpiry, htimer, if_true, Device.bus_onBus, hrun]
      rfl
    · rw [hexpiry]
      simp only [Device.pollPeriodExpiry, htimer, if_true, Device.bus_onBus]
      split
      · exact absurd ‹_› hrun
      · exact absurd ‹_› hrun
      · rfl
  · intro b evaluated
    refine (s.event_live _ hh).trans (congrArg (fun d => Host.Outcome.next { s with dev := d }) ?_)
    have hdev : ((s.dev.onBus (fun b => { b with previousSlot := b.presentSlot, presentSlot := [], slotTimer := none })).evaluate.onBus
        (fun b => { b with phase := .between })) = { evaluated with bus := b } := by
      rw [← Device.evaluate_onBus]
      exact (s.withBus b).dev.evaluate_withBus b
    simp only [Device.slotEnd, htimer, if_true, hdev]
    change (if s.dev.bus.startPending = true then _ else _) = _
    split <;> rfl

/-! ### Polls (R57 to R60) -/

section Poll
variable (s : State) {k address : Nat}

/-- A reply is awaited. -/
def Bus.Awaits (b : Bus) (address k : Nat) : Prop :=
  b.state = .run ∧ b.phase = .polling address ∧ b.replyTimer.isSome = true ∧ b.nodeAt address = some k

theorem Bus.Awaits.awaited {b : Bus} (h : b.Awaits address k) : b.awaited = some address := by
  obtain ⟨hrun, hphase, htimer, -⟩ := h
  obtain ⟨t, ht⟩ := Option.isSome_iff_exists.1 htimer
  simp only [Bus.awaited, hrun, hphase, ht]

/-- A miss with retries left. -/
theorem Device.attemptMissed_again (d : Device) (h : d.bus.attempt < d.bus.shortRetries) :
    d.attemptMissed address = d.onBus (fun b => b.sendAttempt (b.attempt + 1)) :=
  if_pos (by omega)

/-- The last miss: a poll has failed (R58). -/
theorem Device.attemptMissed_last (d : Device) (h : d.bus.shortRetries ≤ d.bus.attempt) (hk : d.bus.nodeAt address = some k) :
    d.attemptMissed address =
      (if (d.bus.node k).state ≠ .offline ∧ ((d.bus.node k).failed d.bus.longRetry).state = .offline
        then (d.onBus (fun b => b.setNode k ((d.bus.node k).failed d.bus.longRetry))).addNotice (.nodeOffline k)
        else d.onBus (fun b => b.setNode k ((d.bus.node k).failed d.bus.longRetry))).onBus Bus.chooseNext := by
  rw [Device.attemptMissed, if_neg (by omega)]
  simp only [Device.pollFailed, hk]

theorem Device.attemptMissed_stays (d : Device) {n : Node} (h : d.bus.shortRetries ≤ d.bus.attempt)
    (hk : d.bus.nodeAt address = some k) (hn : (d.bus.node k).failed d.bus.longRetry = n)
    (hs : ¬((d.bus.node k).state ≠ .offline ∧ n.state = .offline)) :
    d.attemptMissed address = { d with bus := (d.bus.setNode k n).chooseNext } := by
  rw [d.attemptMissed_last h hk, hn, if_neg hs]
  rfl

theorem Device.attemptMissed_lost (d : Device) {n : Node} (h : d.bus.shortRetries ≤ d.bus.attempt)
    (hk : d.bus.nodeAt address = some k) (hn : (d.bus.node k).failed d.bus.longRetry = n)
    (hs : (d.bus.node k).state ≠ .offline ∧ n.state = .offline) :
    d.attemptMissed address =
      { d with bus := (d.bus.setNode k n).chooseNext, cell := d.cell.addNotice (.nodeOffline k) } := by
  rw [d.attemptMissed_last h hk, hn, if_pos hs]
  rfl

theorem Bus.Awaits.replyTimeout {s : State} (h : s.dev.bus.Awaits address k) (hh : s.dev.link.held = false) :
    exec .replyTimeout s = .next { s with dev := s.dev.attemptMissed address } := by
  refine (s.event_live _ hh).trans ?_
  simp only [Device.replyTimeout, h.awaited]

/-- A whole frame of the node and the attempt: its number of entries decides (R57). -/
theorem Bus.Awaits.reply_judged {s : State} (h : s.dev.bus.Awaits address k) (hh : s.dev.link.held = false) {f : BusFrame}
    (hc : f.checkOk = true) (hf : f.type = 2 ∧ f.address = address ∧ f.attempt = s.dev.bus.attempt) :
    exec (.reply f) s = .next { s with dev :=
      if f.entries.length = (s.dev.bus.node k).channels then s.dev.pollGood k f.entries else s.dev.attemptMissed address } := by
  have hmine : ¬(f.type ≠ 2 ∨ f.address ≠ address ∨ f.attempt ≠ s.dev.bus.attempt) := by simpa using hf
  refine (s.event_live _ hh).trans ?_
  simp only [Device.replyReceived, h.awaited, hc, Bool.not_true, Bool.false_eq_true, if_false, if_neg hmine, h.2.2.2]

/-- A frame that is no valid reply of the node is a miss (R57). -/
theorem Bus.Awaits.reply_wrong {s : State} (h : s.dev.bus.Awaits address k) (hh : s.dev.link.held = false) {f : BusFrame}
    (hf : f.checkOk = false ∨ (f.type = 2 ∧ f.address = address ∧ f.attempt = s.dev.bus.attempt ∧
      f.entries.length ≠ (s.dev.bus.node k).channels)) :
    exec (.reply f) s = exec .replyTimeout s := by
  rw [h.replyTimeout hh]
  cases hc : f.checkOk with
  | false =>
    refine (s.event_live _ hh).trans ?_
    simp only [Device.replyReceived, h.awaited, hc, Bool.not_false, if_true]
  | true =>
    obtain ⟨htype, haddress, hattempt, hlength⟩ := hf.resolve_left (by simp [hc])
    rw [h.reply_judged hh hc ⟨htype, haddress, hattempt⟩, if_neg hlength]

/-- A frame from elsewhere is discarded (R57). -/
theorem Bus.Awaits.reply_elsewhere {s : State} (h : s.dev.bus.Awaits address k) (hh : s.dev.link.held = false) {f : BusFrame}
    (hc : f.checkOk = true) (hf : f.type ≠ 2 ∨ f.address ≠ address ∨ f.attempt ≠ s.dev.bus.attempt) :
    exec (.reply f) s = .next s := by
  refine (s.event_live _ hh).trans ?_
  simp only [Device.replyReceived, h.awaited, hc, if_pos hf]
  rfl

/-- A good poll (R59). -/
theorem Bus.Awaits.reply_good {s : State} (h : s.dev.bus.Awaits address k) (hh : s.dev.link.held = false) {f : BusFrame}
    (hf : f.checkOk = true ∧ f.type = 2 ∧ f.address = address ∧ f.attempt = s.dev.bus.attempt ∧
      f.entries.length = (s.dev.bus.node k).channels) :
    exec (.reply f) s = .next { s with dev := s.dev.pollGood k f.entries } := by
  obtain ⟨hc, htype, haddress, hattempt, hlength⟩ := hf
  rw [h.reply_judged hh hc ⟨htype, haddress, hattempt⟩, if_pos hlength]

/-- A good poll of a node that is not ONLINE delivers nothing. -/
theorem Device.pollGood_silent (d : Device) {n : Node} (entries : List Int) (hn : (d.bus.node k).succeeded = n)
    (hs : (d.bus.node k).state ≠ .online) : d.pollGood k entries = { d with bus := (d.bus.setNode k n).chooseNext } := by
  simp only [Device.pollGood, hn, if_neg hs]
  rfl

/-- A good poll of an ONLINE node delivers its readings (R60). -/
theorem Device.pollGood_delivers (d : Device) {n : Node} (entries : List Int) (hn : (d.bus.node k).succeeded = n)
    (hs : (d.bus.node k).state = .online) :
    d.pollGood k entries = (({ d with bus := d.bus.setNode k n } : Device).deliverAll k entries).onBus Bus.chooseNext := by
  simp only [Device.pollGood, hn, if_pos hs]
  rfl

end Poll

/-! ### A node after a poll (R58, R59) -/

section Node
variable {n : Node} {longRetry : Nat}

theorem Node.state_ne {st other : NodeState} (h : n.state = st) (hne : st ≠ other) : n.state ≠ other := h ▸ hne

theorem Node.succeeded_online (h : n.state = .online) : n.succeeded = { n with missed := 0 } := by simp [Node.succeeded, h]

theorem Node.succeeded_first (h : n.state = .rejoining) (h0 : n.good = 0) : n.succeeded = { n with missed := 0, good := 1 } := by
  simp [Node.succeeded, h, h0]

theorem Node.succeeded_second (h : n.state = .rejoining) (h1 : 1 ≤ n.good) :
    n.succeeded = { n with missed := 0, good := 0, state := .online } := by
  simp [Node.succeeded, h, h1]

theorem Node.succeeded_offline (h : n.state = .offline) : n.succeeded = { n with missed := 0, good := 1, state := .rejoining } := by
  simp [Node.succeeded, h]

theorem Node.failed_online_stays (h : n.state = .online) (hm : n.miss.missed < longRetry) : n.failed longRetry = n.miss := by
  simp [Node.failed, h, Nat.not_le.2 hm]

theorem Node.failed_online_lost (h : n.state = .online) (hm : longRetry ≤ n.miss.missed) :
    n.failed longRetry = { n.miss with state := .offline } := by
  simp [Node.failed, h, hm]

theorem Node.failed_rejoining_stays (h : n.state = .rejoining) (hm : n.miss.missed < longRetry) :
    n.failed longRetry = { n.miss with good := 0 } := by
  simp [Node.failed, h, Nat.not_le.2 hm]

theorem Node.failed_rejoining_lost (h : n.state = .rejoining) (hm : longRetry ≤ n.miss.missed) :
    n.failed longRetry = { n.miss with good := 0, state := .offline } := by
  simp [Node.failed, h, hm]

theorem Node.failed_offline (h : n.state = .offline) : n.failed longRetry = n.miss := by simp [Node.failed, h]

end Node

/-- Settles O29: the frames and expiries of a poll. -/
theorem pollAttemptsAndOutcomes : Obligations.PollAttemptsAndOutcomes := by
  unfold Obligations.PollAttemptsAndOutcomes
  intro s k address f hh
  refine ⟨fun hsend => ?_, fun hsend => ?_, fun hrun hphase htimer hk => ?_⟩
  · refine (s.event_live _ hh).trans ?_
    simp only [Device.onBus, Bus.pollSent, hsend, if_true]
    rfl
  · refine (s.event_live _ hh).trans ?_
    simp only [Device.onBus, Bus.pollSent, hsend]
    rfl
  · intro b n missed again with' lost good wrong
    have ha : s.dev.bus.Awaits address k := ⟨hrun, hphase, htimer, hk⟩
    refine ⟨fun hretry => ?_, fun hw => ha.reply_wrong hh hw, fun hc hf => ha.reply_elsewhere hh hc hf, fun hg hn => ?_,
      fun hg hn h0 => ?_, fun hg hn h1 => ?_, fun hg hn => ?_, fun hlast => ⟨fun hn hm => ?_, fun hn hm => ?_, fun hn hm => ?_,
      fun hn hm => ?_, fun hn => ?_⟩⟩
    · rw [ha.replyTimeout hh, s.dev.attemptMissed_again hretry]
      rfl
    · rw [ha.reply_good hh hg, s.dev.pollGood_delivers f.entries (Node.succeeded_online hn) hn]
      rfl
    · rw [ha.reply_good hh hg, s.dev.pollGood_silent f.entries (Node.succeeded_first hn h0) (Node.state_ne hn (by decide))]
      rfl
    · rw [ha.reply_good hh hg, s.dev.pollGood_silent f.entries (Node.succeeded_second hn h1) (Node.state_ne hn (by decide))]
      rfl
    · rw [ha.reply_good hh hg, s.dev.pollGood_silent f.entries (Node.succeeded_offline hn) (Node.state_ne hn (by decide))]
      rfl
    · rw [ha.replyTimeout hh, s.dev.attemptMissed_stays hlast hk (Node.failed_online_stays hn hm)
        (fun h => absurd (h.2.symm.trans hn) (by decide))]
      rfl
    · rw [ha.replyTimeout hh, s.dev.attemptMissed_lost hlast hk (Node.failed_online_lost hn hm)
        ⟨Node.state_ne hn (by decide), rfl⟩]
      rfl
    · rw [ha.replyTimeout hh, s.dev.attemptMissed_stays hlast hk (Node.failed_rejoining_stays hn hm)
        (fun h => absurd (h.2.symm.trans hn) (by decide))]
      rfl
    · rw [ha.replyTimeout hh, s.dev.attemptMissed_lost hlast hk (Node.failed_rejoining_lost hn hm)
        ⟨Node.state_ne hn (by decide), rfl⟩]
      rfl
    · rw [ha.replyTimeout hh, s.dev.attemptMissed_stays hlast hk (Node.failed_offline hn) (fun h => h.1 hn)]
      rfl

/-! ### Announces (R62, R63) -/

theorem announceOk_iff (checkOk : Bool) (x : Announce) :
    announceOk checkOk x = true ↔ checkOk = true ∧ 1 ≤ x.address ∧ x.address ≤ 62 ∧ 1 ≤ x.channels ∧ x.channels ≤ 4 := by
  simp [announceOk, and_assoc]

theorem Bus.confirm_eq (b : Bus) (x : Announce) :
    b.confirm x =
      if ∃ y ∈ b.announces, y.address = x.address then
        { b with announces := b.announces.map (fun y => if y.address = x.address then x else y) }
      else if b.announces.length < 4 then { b with announces := b.announces ++ [x] }
      else { b with announceOverflow := true } := by
  have hany : b.announces.any (fun y => y.address == x.address) = true ↔ ∃ y ∈ b.announces, y.address = x.address := by simp
  simp only [Bus.confirm, hany, Config.announceRoom]

/-- Settles O30: an announce is discarded, entered, or confirmed. -/
theorem announceIsConfirmedInTheNextSlot : Obligations.AnnounceIsConfirmedInTheNextSlot := by
  unfold Obligations.AnnounceIsConfirmedInTheNextSlot
  intro checkOk address channels kind s hh b x ok others
  have hok : (s.dev.bus.phase = .slot ∧ announceOk checkOk x = true ∧ s.dev.bus.nodeAt x.address = none) ↔ ok := by
    rw [announceOk_iff]
    simp only [ok, b, x, and_assoc]
  have hexec : exec (.announce checkOk address channels kind) s = .next { s with dev := s.dev.announceReceived checkOk x } :=
    s.event_live _ hh
  have hany : s.dev.bus.previousSlot.any (fun y => y.address == x.address) = true ↔ ∃ y ∈ b.previousSlot, y.address = address := by
    simp [b, x]
  refine ⟨fun h => ?_, fun h hnone => ?_, fun h hsome => ?_⟩
  · rw [hexec, Device.announceReceived, if_neg (fun g => h (hok.1 g))]
  · rw [hexec, Device.announceReceived, if_pos (hok.2 h), if_neg (fun g => by
      obtain ⟨y, hy, he⟩ := hany.1 g
      exact hnone y hy he)]
    rfl
  · rw [hexec, Device.announceReceived, if_pos (hok.2 h), if_pos (hany.2 hsome)]
    simp only [Bus.confirm_eq]
    rfl

/-! ### The line (R65 to R67) -/

theorem Bus.polledAddress_eq {b : Bus} {address : Nat}
    (h : b.phase = .polling address ∨ (address = 0 ∧ ∀ x, b.phase ≠ .polling x)) : b.polledAddress = address := by
  simp only [Bus.polledAddress]
  rcases h with h | ⟨rfl, h⟩
  · rw [h]
  · split
    · exact absurd ‹_› (h _)
    · rfl

theorem Device.lineStuck_run (d : Device) (h : d.bus.state = .run) :
    d.lineStuck = (d.onBus (fun b =>
      { b.abandon with state := .faulted, stuckTimer := none, releasedTimer := none, lineDriven := true })).addNotice
      (.busFault d.bus.polledAddress) := if_pos h

theorem Device.lineStuck_not_run (d : Device) (h : d.bus.state ≠ .run) : d.lineStuck = d := if_neg h

/-- Settles O31: the stuck line, the line's changes, and the recovery. -/
theorem lineStuckAndRecovery : Obligations.LineStuckAndRecovery := by
  unfold Obligations.LineStuckAndRecovery
  intro s hh b
  have hstuck : exec .lineStuck s = .next { s with dev := s.dev.lineStuck } := s.event_live _ hh
  have hline : ∀ driven, exec (.busLineLevelChange driven) s = .next (s.withBus (b.lineChange driven)) := by
    intro driven
    simp only [exec, execBusLineLevelChange, hh]
    rfl
  have hreleased : b.state = .faulted → b.releasedTimer.isSome = true →
      exec .releasedTimerExpiry s = .next (s.withBus b.recover) := by
    intro hfault htimer
    refine (s.event_live _ hh).trans ?_
    simp only [Device.onBus, Bus.releasedExpiry, if_pos (show s.dev.bus.state = .faulted ∧ s.dev.bus.releasedTimer.isSome = true
      from ⟨hfault, htimer⟩)]
    rfl
  refine ⟨fun hrun address ha => ?_, fun hrun => ?_, fun hfault hdriven => ?_, fun hfault hdriven => ?_, fun hrun hdriven => ?_,
    fun hfault htimer => hreleased hfault htimer, fun t => ⟨fun ht => ?_, fun hfault htimer ht => ?_⟩⟩
  · rw [hstuck, s.dev.lineStuck_run hrun, Bus.polledAddress_eq ha]
    rfl
  · rw [hstuck, s.dev.lineStuck_not_run hrun]
  · rw [hline, Bus.lineChange, if_neg (by simp [hdriven])]
    simp only [Bus.watchLine, hfault]
  · rw [hline, Bus.lineChange, if_neg (by simp [hdriven])]
    simp only [Bus.watchLine, hfault]
  · rw [hline, Bus.lineChange, if_neg (by simp [hdriven])]
    simp only [Bus.watchLine, hrun]
  · rw [hstuck, Host.Outcome.next.injEq] at ht
    subst ht
    by_cases hrun : s.dev.bus.state = .run
    · simp only [s.dev.lineStuck_run hrun]
      rfl
    · simp only [s.dev.lineStuck_not_run hrun]
      simpa [Bus.driverEnabled] using hrun
  · rw [hreleased hfault htimer, Host.Outcome.next.injEq] at ht
    subst ht
    exact (Bus.driverEnabled_iff _).2 (Bus.state_nextCycle _)

end Sys2Proof.Machine
end

section
/-! PROOFS. The commands of the temperature unit, the deliveries, and the stale and hold timers (R12, R60, R68 to R77, R80, R84, R87):
O33 to O35 and O37. -/

namespace Sys2Proof.Machine

/-! ### Channel commands (R70, R71, R77) -/

/-- An evaluation commutes with the clocking of a frame. -/
theorem Device.evaluate_clocked (d : Device) (n : Nat) :
    (d.clocked n).evaluate =
      { d.evaluate with link := { d.evaluate.link with queue := d.link.queue.drop n, overflow := d.link.overflow } } := by
  rw [d.evaluates_evaluate.link]
  exact d.evaluate_link (d.link.clockOut n)

/-- A taken command that changes a record and evaluates the groups. -/
theorem State.command_evaluates (s : State) (code words status : Nat) (serve : Device → Served) (h : s.takes words) (d : Device)
    (st : Status) (body : List Word) (hs : serve (s.dev.clocked words) = ⟨(d.clocked words).evaluate, st, body⟩)
    (hd : d.link = s.dev.link) (hst : st.number = status) :
    s.command (BitVec.ofNat 16 code) words serve = .next (s.answered code words status body d.evaluate) := by
  refine s.command_answers code words status serve h d.evaluate st body ?_ hst
  rw [hs, d.evaluate_clocked, hd]

theorem switchOfCode_of_le {n : Nat} (h : n ≤ 1) : switchOfCode n = some (n == 1) := by
  match n, h with
  | 0, _ => rfl
  | 1, _ => rfl

theorem flagWord_beq_one {n : Nat} (h : n ≤ 1) : flagWord (n == 1) = word n := by
  match n, h with
  | 0, _ => rfl
  | 1, _ => rfl

theorem windowSizeOk_iff (n : Nat) : windowSizeOk n = true ↔ n = 1 ∨ n = 2 ∨ n = 4 ∨ n = 8 := by
  simp [windowSizeOk, or_assoc]

/-- No other configured channel names the node and index (R70, step 4). -/
theorem Device.channelTaken_eq_false {d : Device} {k node index : Nat}
    (h : ∀ j, j ≠ k → (d.channel j).state ≠ .unused → ¬((d.channel j).node = node ∧ (d.channel j).index = index)) :
    d.channelTaken k node index = false := by
  simp only [Device.channelTaken, List.any_eq_false]
  rintro ⟨j, x⟩ hx
  obtain ⟨-, -, rfl⟩ := (d.temp.channels.mem_numbered j x Channel.reset).1 hx
  have := h j
  simp only [Device.channel] at this
  simp only [Bool.and_eq_true, bne_iff_ne, beq_iff_eq, not_and, and_imp]
  exact fun hj hu hn hi => this hj hu ⟨hn, hi⟩

/-- The premises of an accepted CHANNEL_SET. -/
theorem serveChannelSet_accepts {channel node index group window fine longStale rejectLimit staleTime : Nat} {stepLimit : Int}
    {d : Device} (hc : 1 ≤ channel ∧ channel ≤ 32) (hn : 1 ≤ node ∧ node ≤ 16) (hi : 1 ≤ index ∧ index ≤ 4) (hg : group ≤ 12)
    (hw : window = 1 ∨ window = 2 ∨ window = 4 ∨ window = 8) (hf : fine ≤ 1) (hl : longStale ≤ 1)
    (hnode : (d.bus.node node).state ≠ .unused) (hindex : index ≤ (d.bus.node node).channels)
    (hfree : ∀ k, k ≠ channel → (d.channel k).state ≠ .unused → ¬((d.channel k).node = node ∧ (d.channel k).index = index)) :
    let c := newChannel node index group window stepLimit (fine == 1) (longStale == 1) rejectLimit staleTime
    serveChannelSet channel node index group window stepLimit fine longStale rejectLimit staleTime d =
      ⟨(d.setChannel channel c).evaluate,
       clampStatus (c.stepLimit != stepLimit || c.rejectLimit != rejectLimit || c.staleTime != staleTime), channelConfigWords c⟩ := by
  intro c
  simp only [serveChannelSet, switchOfCode_of_le hf, switchOfCode_of_le hl, (numberOk_iff 32 channel).2 hc,
    (numberOk_iff 16 node).2 hn, (numberOk_iff 4 index).2 hi, (windowSizeOk_iff window).2 hw,
    decide_eq_false (Nat.not_lt.2 hg), if_neg (show ¬(d.bus.nodes.get node Node.reset).state = .unused from hnode),
    if_neg (show ¬(d.bus.nodes.get node Node.reset).channels < index from Nat.not_lt.2 hindex),
    Device.channelTaken_eq_false hfree]
  rfl

/-- Settles O33: the three channel commands. -/
theorem channelCommandsThenEvaluate : Obligations.ChannelCommandsThenEvaluate := by
  unfold Obligations.ChannelCommandsThenEvaluate
  refine ⟨fun channel node index group window fine longStale rejectLimit staleTime stepLimit s ht hc1 hc32 hn1 hn16 hi1 hg hw hf hl
    hnode hindex hi4 hfree => ?_, fun channel s ht h1 h32 => ⟨fun hused => ?_, fun hfault => ?_, fun hfault => ?_⟩⟩
  · intro sl rl st
    have hsl : clampInt 10 5000 stepLimit = sl := clampInt_eq_min_max _ _ _ (by decide)
    have hrl : clampNat 1 15 rejectLimit = rl := clampNat_eq _ _ _ (by decide)
    have hst : clampNat 1000 60000 staleTime = st := clampNat_eq _ _ _ (by decide)
    have hnew : newChannel node index group window stepLimit (fine == 1) (longStale == 1) rejectLimit staleTime =
        ⟨node, index, group, window, sl, fine == 1, longStale == 1, rl, st, .waiting, [], none, 0, none, none⟩ := by
      simp only [newChannel, hsl, hrl, hst]
    refine s.command_evaluates 264 12 _ _ ht _ (clampStatus (sl != stepLimit || rl != rejectLimit || st != staleTime)) _ ?_ rfl ?_
    · rw [serveChannelSet_accepts (d := s.dev.clocked 12) ⟨hc1, hc32⟩ ⟨hn1, hn16⟩ ⟨hi1, hi4⟩ hg hw hf hl hnode hindex hfree, hnew]
      simp only [channelConfigWords, flagWord_beq_one hf, flagWord_beq_one hl]
      rfl
    · exact clampStatus_number_of_iff (by simp [and_assoc])
  · refine s.command_evaluates 265 3 0 _ ht _ .ok _ ?_ rfl rfl
    simp only [serveChannelRemove, (numberOk_iff 32 channel).2 ⟨h1, h32⟩, Device.channel_clocked]
    exact if_neg hused
  · refine s.command_evaluates 1030 3 0 _ ht _ .ok _ ?_ rfl rfl
    simp only [serveChannelClear, (numberOk_iff 32 channel).2 ⟨h1, h32⟩, Device.channel_clocked]
    exact if_neg (Classical.not_not.2 hfault)
  · refine s.command_leaves 1030 3 31 _ ht .notFaulted _ ?_ rfl
    simp only [serveChannelClear, (numberOk_iff 32 channel).2 ⟨h1, h32⟩, Device.channel_clocked]
    exact if_pos hfault

/-! ### WORKPIECE_SET, GROUP_SET and TEMP_SET (R12, R80, R87) -/

theorem groupsOk_of_le {g : ArmGroups} (hx : g.x ≤ 12) (hy : g.y ≤ 12) (hz : g.z ≤ 12) (he : g.env ≤ 12) : groupsOk g = true := by
  simp [groupsOk, hx, hy, hz, he]

/-- Settles O34: the three commands by their checks. -/
theorem workpieceSetGroupSetTempSet : Obligations.WorkpieceSetGroupSetTempSet := by
  unfold Obligations.WorkpieceSetGroupSetTempSet
  refine ⟨fun group alpha da db s ht => ⟨fun hg => ?_, fun hg => ?_⟩, fun group hold spread s ht => ⟨fun hg => ?_, fun h1 h12 => ?_⟩,
    fun drift ga gb s ht hax hay haz hae hbx hby hbz hbe => ⟨fun ha hb => ?_, fun hab => ?_⟩⟩
  · refine s.command_answers 260 16 _ _ ht _ (clampStatus (min alpha 40000 != alpha)) _ ?_ ?_
    · simp only [serveWorkpieceSet, if_neg (Nat.not_lt.2 hg), clampNat_zero]
      rfl
    · exact clampStatus_number_of_iff (by rw [bne_eq_false_iff_eq]; omega)
  · refine s.command_leaves 260 16 7 _ ht .badArg [] ?_ rfl
    simp only [serveWorkpieceSet, if_pos hg]
    rfl
  · refine s.command_leaves 266 6 7 _ ht .badArg [] ?_ rfl
    simp only [serveGroupSet, numberOk_eq_false (n := 12) (k := group) (by omega)]
    rfl
  · refine s.command_answers 266 6 _ _ ht _ (clampStatus (min hold 600000 != hold || max 0 (min 10000 spread) != spread)) _ ?_ ?_
    · simp only [serveGroupSet, (numberOk_iff 12 group).2 ⟨h1, h12⟩, clampNat_zero, clampInt_eq 0 10000 spread (by decide),
        Device.group_clocked, Int.min_comm 10000 spread]
      rfl
    · refine clampStatus_number_of_iff ?_
      simp only [Bool.or_eq_false_iff, bne_eq_false_iff_eq]
      omega
  · have hoff : ∀ a, s.dev.cell.isOff a = true := fun a => by cases a <;> exact Cell.isOff_of_off ‹_›
    have hw : clampInt 100 5000 drift = min (max drift 100) 5000 := clampInt_eq_min_max _ _ _ (by decide)
    refine s.command_answers 267 11 _ _ ht _ (clampStatus (min (max drift 100) 5000 != drift)) _ ?_ ?_
    · simp only [serveTempSet, groupsOk_of_le hax hay haz hae, groupsOk_of_le hbx hby hbz hbe, Device.cell_clocked, hoff, hw]
      rfl
    · refine clampStatus_number_of_iff ?_
      simp only [bne_eq_false_iff_eq]
      omega
  · refine s.command_leaves 267 11 8 _ ht .badState [] ?_ rfl
    have hor : (!s.dev.cell.isOff .armA || !s.dev.cell.isOff .armB) = true := by simpa using hab
    simp only [serveTempSet, groupsOk_of_le hax hay haz hae, groupsOk_of_le hbx hby hbz hbe, Device.cell_clocked, hor]
    rfl

/-! ### Deliveries (R60, R73 to R75) -/

/-- The readings of a node are delivered one after the other. -/
theorem Device.deliverAll_append (d : Device) (node : Nat) (entries : List Int) (v : Int) :
    d.deliverAll node (entries ++ [v]) = (d.deliverAll node entries).deliver node (entries.length + 1) v := by
  simp only [Device.deliverAll, List.zipIdx_append, List.foldl_append, List.zipIdx_cons, List.zipIdx_nil, List.foldl_cons,
    List.foldl_nil, Nat.zero_add]

/-- Channel `k` is configured and names the node and the index. -/
def Device.Names (d : Device) (node index k : Nat) : Prop :=
  (d.channel k).state ≠ .unused ∧ (d.channel k).node = node ∧ (d.channel k).index = index

theorem Device.Names.inRange {d : Device} {node index k : Nat} (h : d.Names node index k) : 1 ≤ k ∧ k ≤ 32 := by
  refine Classical.byContradiction (fun hr => ?_)
  exact h.1 (congrArg Channel.state (d.temp.channels.get_outside k Channel.reset (by omega)))

/-- A channel is found exactly where one names the node and the index. -/
theorem Device.channelNamed_spec (d : Device) (node index : Nat) :
    (∀ k, d.channelNamed node index = some k → d.Names node index k) ∧
      (d.channelNamed node index = none → ∀ k, ¬d.Names node index k) := by
  constructor
  · intro k h
    obtain ⟨⟨j, x⟩, hfind, rfl⟩ := Option.map_eq_some_iff.1 h
    obtain ⟨-, -, rfl⟩ := (d.temp.channels.mem_numbered j x Channel.reset).1 (List.mem_of_find?_eq_some hfind)
    simpa [Device.Names, Device.channel, and_assoc] using List.find?_some hfind
  · intro h k hk
    have hnone := List.find?_eq_none.1 (Option.map_eq_none_iff.1 h) (k, d.channel k)
      ((d.temp.channels.mem_numbered k _ Channel.reset).2 ⟨hk.inRange.1, hk.inRange.2, rfl⟩)
    exact hnone (by simp [hk.1, hk.2.1, hk.2.2])

theorem Device.deliver_discarded (d : Device) {node index : Nat} (v : Int) (h : ∀ k, ¬d.Names node index k) :
    d.deliver node index v = d := by
  cases hc : d.channelNamed node index with
  | none => simp only [Device.deliver, hc]
  | some k => exact absurd ((d.channelNamed_spec node index).1 k hc) (h k)

theorem Device.deliver_named (d : Device) {node index k : Nat} (v : Int) (hk : d.Names node index k)
    (honly : ∀ j, j ≠ k → ¬d.Names node index j) : d.deliver node index v = d.deliverTo k v := by
  cases hc : d.channelNamed node index with
  | none => exact absurd hk ((d.channelNamed_spec node index).2 hc k)
  | some j =>
    have hj := (d.channelNamed_spec node index).1 j hc
    obtain rfl : j = k := by
      refine Classical.byContradiction (fun hne => ?_)
      exact honly j hne hj
    simp only [Device.deliver, hc]

/-- The rounded mean of a list is its rounded quotient (R3). -/
theorem roundedMean_eq (l : List Int) : roundedMean l = roundDiv l.sum l.length := by
  rw [roundedMean, List.sum_eq_foldl]

theorem roundedMean_nearest {l : List Int} (h : l ≠ []) :
    2 * (roundedMean l * l.length - l.sum).natAbs ≤ l.length ∧
      (2 * (roundedMean l * l.length - l.sum).natAbs = l.length → l.sum.natAbs < (roundedMean l * l.length).natAbs) := by
  have hpos : (0 : Int) < l.length := by
    have := List.length_pos_iff.2 h
    omega
  simpa only [roundedMean_eq, Int.natAbs_natCast] using roundDiv_nearest l.sum l.length hpos

/-- A rejected entry: out of range, a fault marker among them, or a step beyond the effective limit (R73). -/
theorem Channel.rejected_iff (c : Channel) (v : Int) :
    c.rejected v = true ↔ v < -40000 ∨ 85000 < v ∨
      ∃ last, c.lastAccepted = some last ∧ (if c.fine then c.stepLimit / 2 else c.stepLimit) < ((v - last).natAbs : Int) := by
  have hmarker : v = -2147483648 → v < -40000 := by omega
  simp only [Channel.rejected, Channel.effectiveStep]
  cases c.lastAccepted with
  | none => simp; grind
  | some last => simp; grind

/-- The channel judges its deliveries. -/
def Channel.Judges (c : Channel) : Prop := c.state = .waiting ∨ c.state = .active ∨ c.state = .stale

theorem Device.deliverTo_discards (d : Device) {k : Nat} (v : Int) (h : ¬(d.channel k).Judges) : d.deliverTo k v = d := by
  simp only [Device.deliverTo]
  split
  · rfl
  · rfl
  · rename_i hu hf
    refine absurd ?_ h
    simp only [Channel.Judges]
    cases hs : (d.channel k).state <;> simp_all

theorem Device.deliverTo_judges (d : Device) {k : Nat} (v : Int) (h : (d.channel k).Judges) :
    d.deliverTo k v =
      if (d.channel k).rejected v = true then
        if (d.channel k).reject.state = .faulted then (d.setChannel k (d.channel k).reject).addNotice (.channelFault k)
        else d.setChannel k (d.channel k).reject
      else d.setChannel k ((d.channel k).accept v) := by
  simp only [Device.deliverTo]
  split
  · rename_i hs; simp [Channel.Judges, hs] at h
  · rename_i hs; simp [Channel.Judges, hs] at h
  · rfl

theorem Channel.reject_below {c : Channel} (h : c.rejects + 1 < c.rejectLimit) : c.reject = { c with rejects := c.rejects + 1 } :=
  if_pos h

theorem Channel.reject_atLimit {c : Channel} (h : c.rejectLimit ≤ c.rejects + 1) :
    c.reject = { c with rejects := c.rejects + 1, state := .faulted, window := [], staleTimer := none } :=
  if_neg (Nat.not_lt.2 h)

theorem Channel.Judges.not_faulted {c : Channel} (h : c.Judges) : c.state ≠ .faulted := by
  rcases h with h | h | h <;> simp [h]

/-- Settles O35: deliveries find their channel, and the channel judges them. -/
theorem deliveriesAreJudged : Obligations.DeliveriesAreJudged := by
  unfold Obligations.DeliveriesAreJudged
  refine ⟨fun d node entries v => ⟨rfl, d.deliverAll_append node entries v, fun index => ⟨d.deliver_discarded v,
    fun k => d.deliver_named v⟩⟩, fun l hl => roundedMean_nearest hl, fun d k v h1 h32 => ?_⟩
  intro c limit rejected judged
  have hrej : (d.channel k).rejected v = true ↔ rejected := Channel.rejected_iff _ _
  refine ⟨fun hj => d.deliverTo_discards v hj, fun hj hr => ?_, fun hj hr hlow => ?_, fun hj hr hhigh => ?_⟩
  · rw [d.deliverTo_judges v hj, if_neg (fun h => hr (hrej.1 h))]
    rfl
  · rw [d.deliverTo_judges v hj, if_pos (hrej.2 hr), Channel.reject_below hlow,
      if_neg (show ¬(d.channel k).state = .faulted from Channel.Judges.not_faulted hj)]
  · rw [d.deliverTo_judges v hj, if_pos (hrej.2 hr), Channel.reject_atLimit hhigh, if_pos rfl]

/-! ### The stale and hold timers (R76, R84) -/

/-- Settles O37: the two expiries. -/
theorem staleAndHoldTimersExpire : Obligations.StaleAndHoldTimersExpire := by
  unfold Obligations.StaleAndHoldTimersExpire
  intro s k g hh
  refine ⟨fun htimer hactive => ?_, fun htimer => ?_, fun htimer hheld => ?_, fun htimer => ?_⟩
  · refine (s.event_live _ hh).trans ?_
    simp only [Device.staleExpiry, htimer, hactive, if_true]
  · refine (s.event_live _ hh).trans ?_
    simp only [Device.staleExpiry, htimer]
    rfl
  · refine (s.event_live _ hh).trans ?_
    simp only [Device.holdExpiry, htimer, hheld, if_true]
  · refine (s.event_live _ hh).trans ?_
    simp only [Device.holdExpiry, htimer]
    rfl

end Sys2Proof.Machine
end

section
/-! PROOFS. The evaluation of the groups (R79 to R83): O36. -/

namespace Sys2Proof.Machine

/-! ### Several causes in a free order (R197) -/

/-- A rearrangement of a list of images is the list of images of a rearrangement. -/
theorem exists_perm_of_perm_map {α β : Type} {f : α → β} {l : List α} {m : List β} (h : m.Perm (l.map f)) :
    ∃ l' : List α, l'.Perm l ∧ m = l'.map f := by
  generalize hn : l.map f = n at h
  induction h generalizing l with
  | nil => exact ⟨[], by simp [List.map_eq_nil_iff.1 hn], rfl⟩
  | cons x _ ih =>
    obtain ⟨y, ys, rfl, rfl, rfl⟩ := List.map_eq_cons_iff.1 hn
    obtain ⟨l', hperm, rfl⟩ := ih rfl
    exact ⟨y :: l', hperm.cons y, rfl⟩
  | swap x y _ =>
    obtain ⟨a, l1, rfl, rfl, h1⟩ := List.map_eq_cons_iff.1 hn
    obtain ⟨b, l2, rfl, rfl, rfl⟩ := List.map_eq_cons_iff.1 h1
    exact ⟨b :: a :: l2, .swap a b l2, rfl⟩
  | trans _ _ ih1 ih2 =>
    obtain ⟨l2, h2, rfl⟩ := ih2 hn
    obtain ⟨l1, h1, rfl⟩ := ih1 rfl
    exact ⟨l1, h1.trans h2, rfl⟩

/-- Notices of one kind, one for each entry of a list, are added each once in a free order, and nothing else changes (R197). -/
theorem Device.addNotices_map {α : Type} (d : Device) (f : α → Notice) (l : List α) :
    ∃ l' : List α, l'.Perm l ∧ (d.addNotices (l.map f)).cell = l'.foldl (fun c x => c.addNotice (f x)) d.cell := by
  obtain ⟨m, hperm, hcell, -⟩ := d.addNotices_cell (l.map f)
  obtain ⟨l', hl, rfl⟩ := exists_perm_of_perm_map hperm
  exact ⟨l', hl, by rw [hcell, List.foldl_map]⟩

theorem Device.temp_addNotices (d : Device) (l : List Notice) : (d.addNotices l).temp = d.temp := by
  obtain ⟨_, _, _, h⟩ := d.addNotices_cell l
  exact h

theorem Device.probe_addNotices (d : Device) (l : List Notice) (p : Nat) : (d.addNotices l).cell.probe p = d.cell.probe p := by
  have hfold : ∀ (m : List Notice) (c : Cell), (m.foldl Cell.addNotice c).probe p = c.probe p := by
    intro m
    induction m with
    | nil => exact fun c => rfl
    | cons n ns ih => exact fun c => ih (c.addNotice n)
  obtain ⟨m, _, h, _⟩ := d.addNotices_cell l
  rw [h, hfold]

/-- What a notice set becomes depends on the notice set alone. -/
theorem notices_foldl_addNotice {α : Type} (f : α → Notice) (l : List α) (c c' : Cell) (h : c.notices = c'.notices) :
    (l.foldl (fun c x => c.addNotice (f x)) c).notices = (l.foldl (fun c x => c.addNotice (f x)) c').notices := by
  induction l generalizing c c' with
  | nil => exact h
  | cons x xs ih => exact ih _ _ (by simp only [Cell.addNotice, h])

theorem filterMap_ite_eq_map_filter {α β : Type} (p : α → Prop) [DecidablePred p] (f : α → β) (l : List α) :
    l.filterMap (fun x => if p x then some (f x) else none) = (l.filter (fun x => decide (p x))).map f := by
  induction l with
  | nil => rfl
  | cons x xs ih =>
    rw [List.filterMap_cons, List.filter_cons]
    by_cases h : p x
    · simp only [h, if_true, decide_true, List.map_cons, ih]
    · simp only [h, if_false, decide_false, ih, Bool.false_eq_true]

/-- The numbers of a table are distinct. -/
theorem numbered_keys_nodup {α : Type} {n : Nat} (t : Table α n) : (t.numbered.map Prod.fst).Nodup := by
  have hkeys : t.numbered.map Prod.fst = (t.val.zipIdx.map Prod.snd).map (fun i => i + 1) := by
    simp only [Table.numbered, List.map_map]
    rfl
  rw [hkeys, List.zipIdx_map_snd]
  exact nodup_map_of_apart (fun i j h => Nat.succ.inj h) (List.nodup_range' ..)

/-! ### The evaluation of the groups (R79, R81 to R83) -/

theorem Device.mem_members (d : Device) (g : Nat) (c : Channel) :
    c ∈ d.members g ↔ c ∈ d.temp.channels.val ∧ c.state ≠ .unused ∧ c.group = g := by
  simp [Device.members]

/-- The groups that an evaluation makes LOST (R83). -/
def Device.lostGroups (d : Device) : List Nat :=
  (d.temp.groups.numbered.filter (fun x => decide (x.2.state = .valid ∧ (x.2.evaluated (d.members x.1)).state = .lost))).map Prod.fst

theorem Device.lostNotices_eq (d : Device) : d.lostNotices = d.lostGroups.map Notice.groupLost := by
  rw [Device.lostGroups, List.map_map]
  exact filterMap_ite_eq_map_filter _ _ _

theorem Device.lostGroups_nodup (d : Device) : d.lostGroups.Nodup :=
  (numbered_keys_nodup _).sublist (List.filter_sublist.map _)

theorem Device.mem_lostGroups (d : Device) (g : Nat) :
    g ∈ d.lostGroups ↔ 1 ≤ g ∧ g ≤ 12 ∧ (d.group g).state = .valid ∧ ((d.group g).evaluated (d.members g)).state = .lost := by
  simp only [Device.lostGroups, List.mem_map, List.mem_filter, decide_eq_true_eq, Prod.exists, exists_and_right, exists_eq_right,
    d.temp.groups.mem_numbered _ _ Group.reset]
  exact ⟨fun ⟨x, ⟨h1, h12, hx⟩, hs⟩ => ⟨h1, h12, by subst hx; exact hs⟩, fun ⟨h1, h12, hs⟩ => ⟨_, ⟨h1, h12, rfl⟩, hs⟩⟩

theorem Device.group_evaluateGroups (d : Device) {g : Nat} (h1 : 1 ≤ g) (h12 : g ≤ 12) :
    d.evaluateGroups.group g = (d.group g).evaluated (d.members g) := by
  simp only [Device.group, Device.evaluateGroups, Device.temp_addNotices]
  exact Table.get_mapNumbered _ _ _ Group.reset Group.reset h1 h12

theorem Device.evaluates_evaluateGroups (d : Device) : d.Evaluates d.evaluateGroups := by
  have h : d.Evaluates
      { d with temp := { d.temp with groups := d.temp.groups.mapNumbered (fun g (x : Group) => x.evaluated (d.members g)) } } :=
    ⟨rfl, rfl, rfl, rfl, rfl, fun _ => rfl, rfl, rfl⟩
  exact h.trans (Device.evaluates_addNotices _ _)

/-! ### A group by its members (R79, R82, R83) -/

/-- The values that a group counts (R79). -/
theorem mem_usableValues (l : List Channel) (v : Int) :
    v ∈ usableValues l ↔ ∃ c ∈ l, c.state = .active ∧ c.filtered = some v := by
  simp [usableValues, Channel.counts, and_assoc]

theorem usableValues_ne_nil {l : List Channel} (hf : ∀ c ∈ l, c.state = .active → c.filtered ≠ none) :
    usableValues l ≠ [] ↔ ∃ c ∈ l, c.state = .active := by
  constructor
  · intro h
    obtain ⟨v, hv⟩ := List.exists_mem_of_ne_nil _ h
    obtain ⟨c, hc, ha, -⟩ := (mem_usableValues l v).1 hv
    exact ⟨c, hc, ha⟩
  · rintro ⟨c, hc, ha⟩
    obtain ⟨v, hv⟩ := Option.ne_none_iff_exists'.1 (hf c hc ha)
    exact List.ne_nil_of_mem ((mem_usableValues l v).2 ⟨c, hc, ha, hv⟩)

/-- The spread of a list exceeds a limit exactly if two of its values lie further apart (R82). -/
theorem lt_spreadOf_iff {l : List Int} (h : l ≠ []) (limit : Int) : limit < spreadOf l ↔ ∃ a ∈ l, ∃ b ∈ l, limit < a - b := by
  cases l with
  | nil => exact absurd rfl h
  | cons x xs =>
    obtain ⟨hmax, hmaxall⟩ := foldl_pick_spec (fun a b : Int => b ≤ a) max (fun _ _ _ h1 h2 => Int.le_trans h2 h1) Int.le_refl
      (fun a b => by omega) xs x
    obtain ⟨hmin, hminall⟩ := foldl_pick_spec (fun a b : Int => a ≤ b) min (fun _ _ _ => Int.le_trans) Int.le_refl
      (fun a b => by omega) xs x
    simp only [spreadOf]
    constructor
    · exact fun hlt => ⟨_, hmax, _, hmin, hlt⟩
    · rintro ⟨a, ha, b, hb, hlt⟩
      have := hmaxall a ha
      have := hminall b hb
      omega

section Evaluated
variable {x : Group} {members : List Channel}

theorem Group.evaluated_limits (x : Group) (members : List Channel) :
    (x.evaluated members).holdTime = x.holdTime ∧ (x.evaluated members).spreadLimit = x.spreadLimit := by
  simp only [Group.evaluated]
  split
  · exact ⟨rfl, rfl⟩
  · split
    · exact ⟨rfl, rfl⟩
    · split
      · exact ⟨rfl, rfl⟩
      · split <;> exact ⟨rfl, rfl⟩
      · exact ⟨rfl, rfl⟩
      · exact ⟨rfl, rfl⟩

/-- With a usable member a group is VALID (R82). -/
theorem Group.evaluated_valid (h : usableValues members ≠ []) :
    (x.evaluated members).state = .valid ∧ (x.evaluated members).value = some (roundedMean (usableValues members)) ∧
      (x.evaluated members).holdTimer = none ∧
      ((x.evaluated members).spread = true ↔ x.spreadLimit ≠ 0 ∧
        ∃ a ∈ usableValues members, ∃ b ∈ usableValues members, x.spreadLimit < a - b) := by
  simp only [Group.evaluated, if_pos h, true_and]
  simp [← lt_spreadOf_iff h]

/-- Without members a group is EMPTY (R83). -/
theorem Group.evaluated_empty (x : Group) :
    (x.evaluated []).state = .empty ∧ (x.evaluated []).value = none ∧ (x.evaluated []).spread = false ∧
      (x.evaluated []).holdTimer = none := ⟨rfl, rfl, rfl, rfl⟩

/-- A group whose members have all ceased to be usable holds its value (R83). -/
theorem Group.evaluated_unusable (h : usableValues members = []) (hm : members ≠ []) :
    (x.evaluated members).value = x.value ∧ (x.evaluated members).spread = x.spread ∧
      (x.state = .valid → x.holdTime ≠ 0 → (x.evaluated members).state = .held ∧ (x.evaluated members).holdTimer = some x.holdTime) ∧
      (x.state = .valid → x.holdTime = 0 → (x.evaluated members).state = .lost ∧ (x.evaluated members).holdTimer = x.holdTimer) ∧
      (x.state ≠ .valid → (x.evaluated members).state = x.state ∧ (x.evaluated members).holdTimer = x.holdTimer) := by
  have hnot : ¬usableValues members ≠ [] := Classical.not_not.2 h
  simp only [Group.evaluated, if_neg hnot, if_neg hm]
  cases hs : x.state with
  | valid =>
    by_cases h0 : x.holdTime = 0
    · simp [h0]
    · simp [h0]
  | empty | held | lost => simp

end Evaluated

/-- Settles O36: the evaluation of the twelve groups, and of one group from its members. -/
theorem groupEvaluation : Obligations.GroupEvaluation := by
  unfold Obligations.GroupEvaluation
  refine ⟨fun d => ?_, fun x members hf => ?_⟩
  · intro e
    have he := d.evaluates_evaluateGroups
    refine ⟨rfl, d.mem_members, fun g h1 h12 => d.group_evaluateGroups h1 h12, he.channels, he.driftWindow, he.bus, he.link,
      he.workpiece, ?_⟩
    obtain ⟨lost, hperm, hcell⟩ := Device.addNotices_map
      { d with temp := { d.temp with groups := d.temp.groups.mapNumbered (fun g (x : Group) => x.evaluated (d.members g)) } }
      Notice.groupLost d.lostGroups
    refine ⟨lost, hperm.nodup_iff.2 d.lostGroups_nodup, fun g => hperm.mem_iff.trans (d.mem_lostGroups g), ?_⟩
    rw [← hcell, ← d.lostNotices_eq]
    rfl
  · intro values y
    obtain ⟨hhold, hspread⟩ := x.evaluated_limits members
    refine ⟨hhold, hspread, fun hactive => Group.evaluated_valid ((usableValues_ne_nil hf).2 hactive), ?_, fun hne hnone => ?_⟩
    · rintro rfl
      exact x.evaluated_empty
    · refine Group.evaluated_unusable ?_ hne
      refine Classical.byContradiction (fun hvalues => ?_)
      obtain ⟨c, hc, ha⟩ := (usableValues_ne_nil hf).1 hvalues
      exact hnone c hc ha

end Sys2Proof.Machine
end

section
/-! PROOFS. The group-updated signal and the drift of the tips (R85, R103, R104): O38. -/

namespace Sys2Proof.Machine

/-! ### The probes that a signal evaluates (R103) -/

theorem Probe.followed_iff (p : Probe) (a : ArmId) : p.followed a = true ↔ p.state ≠ .free ∧ p.home = a := by
  simp [Probe.followed]

/-- A probe with its tips evaluated against a group (R104). -/
def Probe.drifted (p : Probe) (g : Group) (window : Int) : Probe := { p with tips := p.tips.map (Tip.evaluate g window) }

theorem Device.probe_evaluateDrift (d : Device) (a : ArmId) (g : Group) (p : Nat) :
    (d.evaluateDrift a g).cell.probe p =
      if (d.cell.probe p).followed a then (d.cell.probe p).drifted g d.temp.driftWindow else d.cell.probe p :=
  Table.get_map _ _ p Probe.reset

/-- An arm's part of the signal evaluates the probes homed on it if its group is named. -/
theorem Device.probe_signalArm (d : Device) (gs : List Nat) (a : ArmId) (p : Nat) :
    (d.signalArm gs a).cell.probe p =
      if (d.cell.probe p).followed a ∧ d.envGroup a ∈ gs then
        (d.cell.probe p).drifted (d.group (d.envGroup a)) d.temp.driftWindow
      else d.cell.probe p := by
  simp only [Device.signalArm, List.contains_iff_mem]
  by_cases h : d.envGroup a ∈ gs
  · simp only [h, if_true, and_true, Device.probe_evaluateDrift]
  · simp only [h, if_false, and_false]

theorem Device.envGroup_signalArm (d : Device) (gs : List Nat) (a b : ArmId) : (d.signalArm gs a).envGroup b = d.envGroup b := by
  simp only [Device.envGroup, (d.evaluates_signalArm gs a).arm]

theorem Device.temp_signalArm (d : Device) (gs : List Nat) (a : ArmId) : (d.signalArm gs a).temp = d.temp := by
  simp only [Device.signalArm]; split <;> rfl

theorem Device.notices_signalArm (d : Device) (gs : List Nat) (a : ArmId) : (d.signalArm gs a).cell.notices = d.cell.notices := by
  simp only [Device.signalArm]; split <;> rfl

theorem Device.group_signalArm (d : Device) (gs : List Nat) (a : ArmId) (g : Nat) : (d.signalArm gs a).group g = d.group g := by
  simp only [Device.group, Device.temp_signalArm]

/-- The signal evaluates a probe: it is not FREE, and its home arm's probe-environment group is named (R103). -/
def Device.followsProbe (d : Device) (gs : List Nat) (p : Nat) : Prop :=
  (d.cell.probe p).state ≠ .free ∧ d.envGroup (d.cell.probe p).home ∈ gs


theorem Device.followed_and_named (d : Device) (gs : List Nat) (a : ArmId) (p : Nat) :
    ((d.cell.probe p).followed a = true ∧ d.envGroup a ∈ gs) ↔ (d.cell.probe p).home = a ∧ d.followsProbe gs p := by
  simp only [Probe.followed_iff, Device.followsProbe]
  constructor
  · rintro ⟨⟨hs, rfl⟩, hg⟩
    exact ⟨rfl, hs, hg⟩
  · rintro ⟨rfl, hs, hg⟩
    exact ⟨⟨hs, rfl⟩, hg⟩

/-- A probe has one home arm, so one of the two arms' parts of the signal evaluates it (R103). -/
theorem Device.probe_signal (d : Device) (gs : List Nat) (p : Nat) :
    (d.followsProbe gs p → (d.signal gs).cell.probe p =
      (d.cell.probe p).drifted (d.group (d.envGroup (d.cell.probe p).home)) d.temp.driftWindow) ∧
    (¬d.followsProbe gs p → (d.signal gs).cell.probe p = d.cell.probe p) := by
  have hB := (d.signalArm gs .armA).probe_signalArm gs .armB p
  have hA := d.probe_signalArm gs .armA p
  simp only [Device.envGroup_signalArm, Device.group_signalArm, Device.temp_signalArm] at hB
  simp only [Device.signal, Device.probe_addNotices, hB]
  have iffA := d.followed_and_named gs .armA p
  refine ⟨fun h => ?_, fun h => ?_⟩
  · cases hh : (d.cell.probe p).home with
    | armA =>
      rw [if_pos (iffA.2 ⟨hh, h⟩)] at hA
      have hhome : ((d.signalArm gs .armA).cell.probe p).home = .armA := by rw [hA]; exact hh
      rw [if_neg (fun hf => by simp [Probe.followed_iff, hhome] at hf), hA]
    | armB =>
      rw [if_neg (fun hf => nomatch hh.symm.trans (iffA.1 hf).1)] at hA
      rw [hA, if_pos ((d.followed_and_named gs .armB p).2 ⟨hh, h⟩)]
  · rw [if_neg (fun hf => h (iffA.1 hf).2)] at hA
    rw [hA, if_neg (fun hf => h ((d.followed_and_named gs .armB p).1 hf).2)]

/-! ### The notices of a signal (R104) -/

/-- The tips, by probe and tip number, that an evaluation of an arm's probes makes DRIFTED. -/
def Device.driftedTips (d : Device) (a : ArmId) (g : Group) : List (Nat × Nat) :=
  d.cell.probes.numbered.flatMap (fun x =>
    if x.2.followed a then (x.2.drifting g d.temp.driftWindow).map (fun t => (x.1, t)) else [])

/-- The notice of one of these tips. -/
def driftNotice (x : Nat × Nat) : Notice := .tipDrifted x.1 x.2

theorem Device.driftNotices_eq (d : Device) (a : ArmId) (g : Group) :
    d.driftNotices a g = (d.driftedTips a g).map driftNotice := by
  simp only [Device.driftNotices, Device.driftedTips, List.map_flatMap]
  congr 1
  funext x
  split
  · rw [List.map_map]; rfl
  · rfl

theorem Probe.drifting_nodup (p : Probe) (g : Group) (w : Int) : (p.drifting g w).Nodup := by
  have hall : (p.tips.zipIdx.map (fun x => x.2 + 1)).Nodup := by
    rw [show (fun x : Tip × Nat => x.2 + 1) = Nat.succ ∘ Prod.snd from rfl, ← List.map_map, List.zipIdx_map_snd]
    exact nodup_map_of_apart (fun i j h => Nat.succ.inj h) (List.nodup_range' ..)
  exact hall.sublist (List.filter_sublist.map _)

theorem Probe.mem_drifting (p : Probe) (g : Group) (w : Int) (t : Nat) :
    t ∈ p.drifting g w ↔ ∃ tip, nth p.tips t = some tip ∧ tip.state = .qualified ∧ (tip.evaluate g w).state = .drifted := by
  simp only [Probe.drifting, List.mem_map, List.mem_filter, Bool.and_eq_true, beq_iff_eq, Prod.exists, List.mk_mem_zipIdx_iff_getElem?]
  constructor
  · rintro ⟨tip, i, ⟨hi, hq, hd⟩, rfl⟩
    exact ⟨tip, hi, hq, hd⟩
  · rintro ⟨tip, ht, hq, hd⟩
    cases t with
    | zero => simp [nth] at ht
    | succ i => exact ⟨tip, i, ⟨ht, hq, hd⟩, rfl⟩

theorem Device.mem_driftedTips (d : Device) (a : ArmId) (g : Group) (p t : Nat) :
    (p, t) ∈ d.driftedTips a g ↔ (d.cell.probe p).followed a = true ∧ t ∈ (d.cell.probe p).drifting g d.temp.driftWindow := by
  simp only [Device.driftedTips, List.mem_flatMap, Prod.exists, d.cell.probes.mem_numbered _ _ Probe.reset]
  constructor
  · rintro ⟨k, x, ⟨h1, h40, rfl⟩, hm⟩
    split at hm
    case isTrue hf =>
      obtain ⟨t', ht, heq⟩ := List.mem_map.1 hm
      obtain ⟨rfl, rfl⟩ := Prod.mk.inj heq
      exact ⟨hf, ht⟩
    case isFalse => simp at hm
  · rintro ⟨hf, ht⟩
    have hp : ¬(p = 0 ∨ 40 < p) := fun hout => by
      have hfree : d.cell.probe p = Probe.reset := Table.get_outside _ _ _ hout
      exact ((Probe.followed_iff _ _).1 (hfree ▸ hf)).1 rfl
    refine ⟨p, d.cell.probe p, ⟨by omega, by omega, rfl⟩, ?_⟩
    rw [if_pos hf]
    exact List.mem_map_of_mem ht

theorem Device.driftedTips_nodup (d : Device) (a : ArmId) (g : Group) : (d.driftedTips a g).Nodup := by
  refine List.pairwise_flatMap.2 ⟨fun x _ => ?_, ?_⟩
  · split
    · exact nodup_map_of_apart (fun i j h => (Prod.mk.inj h).2) (x.2.drifting_nodup g d.temp.driftWindow)
    · exact List.nodup_nil
  · have hkeys : d.cell.probes.numbered.Pairwise (fun x y => x.1 ≠ y.1) := by
      simpa [List.Nodup, List.pairwise_map] using numbered_keys_nodup d.cell.probes
    have hfst : ∀ (x : Nat × Probe) (y : Nat × Nat),
        y ∈ (if x.2.followed a then (x.2.drifting g d.temp.driftWindow).map (fun t => (x.1, t)) else []) → y.1 = x.1 := by
      intro x y hy
      split at hy
      · obtain ⟨t, -, rfl⟩ := List.mem_map.1 hy
        rfl
      · simp at hy
    refine hkeys.imp (fun {x x2} hne y h1 z h2 he => hne ?_)
    rw [← hfst x y h1, ← hfst x2 z h2, he]

/-- The tips that a signal makes DRIFTED, arm A's probes first. -/
def Device.signalledTips (d : Device) (gs : List Nat) : List (Nat × Nat) :=
  (if d.envGroup .armA ∈ gs then d.driftedTips .armA (d.group (d.envGroup .armA)) else []) ++
    (if d.envGroup .armB ∈ gs then d.driftedTips .armB (d.group (d.envGroup .armB)) else [])

theorem Device.signalNotices_eq (d : Device) (gs : List Nat) :
    d.signalNotices gs .armA ++ d.signalNotices gs .armB = (d.signalledTips gs).map driftNotice := by
  have hone : ∀ a, d.signalNotices gs a =
      (if d.envGroup a ∈ gs then d.driftedTips a (d.group (d.envGroup a)) else []).map driftNotice := by
    intro a
    simp only [Device.signalNotices, List.contains_iff_mem]
    split
    · exact d.driftNotices_eq _ _
    · rfl
  rw [hone, hone, ← List.map_append]
  rfl

theorem Device.mem_signalledTips (d : Device) (gs : List Nat) (p t : Nat) :
    (p, t) ∈ d.signalledTips gs ↔ d.followsProbe gs p ∧
      t ∈ (d.cell.probe p).drifting (d.group (d.envGroup (d.cell.probe p).home)) d.temp.driftWindow := by
  have hone : ∀ a, (p, t) ∈ (if d.envGroup a ∈ gs then d.driftedTips a (d.group (d.envGroup a)) else []) ↔
      (d.cell.probe p).home = a ∧ d.followsProbe gs p ∧
        t ∈ (d.cell.probe p).drifting (d.group (d.envGroup a)) d.temp.driftWindow := by
    intro a
    rw [← and_assoc, ← Device.followed_and_named]
    by_cases hg : d.envGroup a ∈ gs
    · rw [if_pos hg, Device.mem_driftedTips, and_iff_left hg]
    · simp [hg]
  simp only [Device.signalledTips, List.mem_append, hone]
  cases (d.cell.probe p).home <;> simp

theorem Device.signalledTips_nodup (d : Device) (gs : List Nat) : (d.signalledTips gs).Nodup := by
  have hone : ∀ a, (if d.envGroup a ∈ gs then d.driftedTips a (d.group (d.envGroup a)) else []).Nodup := by
    intro a
    split
    · exact d.driftedTips_nodup _ _
    · exact List.nodup_nil
  refine List.nodup_append.2 ⟨hone _, hone _, ?_⟩
  rintro ⟨p, t⟩ hA _ hB rfl
  have home : ∀ a, (p, t) ∈ (if d.envGroup a ∈ gs then d.driftedTips a (d.group (d.envGroup a)) else []) →
      (d.cell.probe p).home = a := by
    intro a h
    split at h
    · exact ((Probe.followed_iff _ _).1 ((d.mem_driftedTips _ _ _ _).1 h).1).2
    · simp at h
  have := (home _ hA).symm.trans (home _ hB)
  cases this

/-! ### One tip (R104) -/

theorem Tip.evaluated_other {t : Tip} (g : Group) (w : Int) (hq : t.state ≠ .qualified) (hd : t.state ≠ .drifted) :
    t.evaluated g w = t.state := by
  cases ht : t.state with
  | qualified => exact absurd ht hq
  | drifted => exact absurd ht hd
  | unqualified | due | suspect => simp only [Tip.evaluated, ht]

/-- The tip is one that an evaluation may change: QUALIFIED or DRIFTED. -/
theorem Tip.evaluated_judged {t : Tip} (g : Group) (w : Int) (h : t.state = .qualified ∨ t.state = .drifted) :
    (g.state = .empty → t.evaluated g w = t.state) ∧ (g.state = .lost → t.evaluated g w = .drifted) ∧
    (∀ v q, (g.state = .valid ∨ g.state = .held) → g.value = some v → t.tq = some q →
      t.evaluated g w = if w < ((v - q).natAbs : Int) then .drifted else .qualified) := by
  refine ⟨fun hg => ?_, fun hg => ?_, fun v q hg hv hq => ?_⟩
  · rcases h with h | h <;> simp only [Tip.evaluated, h, hg]
  · rcases h with h | h <;> simp only [Tip.evaluated, h, hg]
  · rcases h with h | h <;> rcases hg with hg | hg <;> simp only [Tip.evaluated, h, hg, hv, hq]

/-- Settles O38: the group-updated signal, and the evaluation of one tip. -/
theorem driftEvaluationOfATip : Obligations.DriftEvaluationOfATip := by
  unfold Obligations.DriftEvaluationOfATip
  refine ⟨fun d gs => ?_, fun t g w => ?_⟩
  · intro e env follows
    have he := d.evaluates_signal gs
    have htemp : e.temp = d.temp := by
      simp only [e, Device.signal, Device.temp_addNotices, Device.temp_signalArm]
    refine ⟨fun p => (d.probe_signal gs p).1, fun p => (d.probe_signal gs p).2, ?_, he.arm, he.bays, he.ms, htemp, he.bus, he.link,
      he.workpiece⟩
    obtain ⟨drifted, hperm, hcell⟩ := Device.addNotices_map ((d.signalArm gs .armA).signalArm gs .armB) driftNotice (d.signalledTips gs)
    refine ⟨drifted, hperm.nodup_iff.2 (d.signalledTips_nodup gs), fun p t => ?_, ?_⟩
    · rw [hperm.mem_iff, Device.mem_signalledTips, Probe.mem_drifting]
      rfl
    · have hsignal : e.cell = drifted.foldl (fun c x => c.addNotice (driftNotice x)) ((d.signalArm gs .armA).signalArm gs .armB).cell := by
        rw [← hcell, ← Device.signalNotices_eq]
        rfl
      rw [hsignal]
      exact notices_foldl_addNotice driftNotice drifted _ _ (by simp only [Device.notices_signalArm])
  · intro u
    refine ⟨rfl, fun h => ?_, fun h => ?_⟩
    · by_cases hj : t.state = .qualified ∨ t.state = .drifted
      · refine (Tip.evaluated_judged g w hj).1 ?_
        rcases hj with hj | hj <;> simpa [hj] using h
      · rw [not_or] at hj
        exact Tip.evaluated_other g w hj.1 hj.2
    · exact (Tip.evaluated_judged g w h).2

end Sys2Proof.Machine
end

section
/-! PROOFS. The probe table: PROBE_DEFINE and PROBE_RETIRE (R92 to R94, R108, R109): O39. -/

namespace Sys2Proof.Machine

/-! ### The probe box (R93) -/

/-- A side of a fold of hulls is the pick of the sides. -/
theorem foldl_hull_side (side : Box → Int) (pick : Int → Int → Int) (h : ∀ b u, side (b.hull u) = pick (side b) (side u))
    (l : List Tip) (b : Box) :
    side (l.foldl (fun b u => b.hull u.box) b) = (l.map (fun t => side t.box)).foldl pick (side b) := by
  induction l generalizing b with
  | nil => rfl
  | cons t ts ih => rw [List.foldl_cons, ih, h, List.map_cons, List.foldl_cons]

/-- A side of the probe box is that side of one of the tips' boxes, and lies on the picked side of all of them (R93). -/
theorem tipsBox_side (r : Int → Int → Prop) (side : Box → Int) (pick : Int → Int → Int)
    (h : ∀ b u, side (b.hull u) = pick (side b) (side u)) (htrans : ∀ x y z, r x y → r y z → r x z) (hrefl : ∀ x, r x x)
    (hpick : ∀ x y, (pick x y = x ∨ pick x y = y) ∧ r (pick x y) x ∧ r (pick x y) y) {l : List Tip} (hl : l ≠ []) :
    (∃ t ∈ l, side (tipsBox l) = side t.box) ∧ ∀ t ∈ l, r (side (tipsBox l)) (side t.box) := by
  cases l with
  | nil => exact absurd rfl hl
  | cons t ts =>
    obtain ⟨hmem, hall⟩ := foldl_pick_spec r pick htrans hrefl hpick (ts.map (fun t => side t.box)) (side t.box)
    rw [← foldl_hull_side side pick h, ← List.map_cons (f := fun t : Tip => side t.box)] at hmem hall
    obtain ⟨u, hu, hside⟩ := List.mem_map.1 hmem
    exact ⟨⟨u, hu, hside.symm⟩, fun u hu => hall _ (List.mem_map_of_mem hu)⟩

theorem tipsBox_low (side : Box → Int) (h : ∀ b u, side (b.hull u) = min (side b) (side u)) {l : List Tip} (hl : l ≠ []) :
    (∃ t ∈ l, side (tipsBox l) = side t.box) ∧ ∀ t ∈ l, side (tipsBox l) ≤ side t.box :=
  tipsBox_side (fun x y => x ≤ y) side min h (fun _ _ _ => Int.le_trans) Int.le_refl (fun x y => by omega) hl

theorem tipsBox_high (side : Box → Int) (h : ∀ b u, side (b.hull u) = max (side b) (side u)) {l : List Tip} (hl : l ≠ []) :
    (∃ t ∈ l, side (tipsBox l) = side t.box) ∧ ∀ t ∈ l, side t.box ≤ side (tipsBox l) :=
  tipsBox_side (fun x y => y ≤ x) side max h (fun _ _ _ h1 h2 => Int.le_trans h2 h1) Int.le_refl (fun x y => by omega) hl

/-! ### PROBE_DEFINE (R94) -/

theorem Cell.codeTaken_eq_false {c : Cell} {code : Nat} (h : ∀ p ∈ c.probes.val, p.state ≠ .free → p.code ≠ code) :
    c.codeTaken code = false := by
  simpa [Cell.codeTaken] using h

/-- No check of PROBE_DEFINE fails: the record is made (R94). -/
theorem serveProbeDefine_accepted (d : Device) {probe code home touchLimit : Nat} {tips : List TipGeometry} {a : ArmId}
    (hp : 1 ≤ probe ∧ probe ≤ 40) (hc : 1 ≤ code ∧ code ≤ 65535) (ha : armOfCode home = some a)
    (ht : 1 ≤ tips.length ∧ tips.length ≤ 5) (hfree : (d.cell.probe probe).state = .free)
    (hcode : ∀ p ∈ d.cell.probes.val, p.state ≠ .free → p.code ≠ code) :
    serveProbeDefine probe code home tips.length touchLimit tips d =
      ⟨d.onCell (fun c =>
          c.modProbe probe (fun _ => ⟨.defined, code, a, .out, touchLimit, tips.map (fun t => freshTip (clampTip t))⟩)),
        clampStatus (tips.map clampTip != tips), boxWords (tipsBox (tips.map (fun t => freshTip (clampTip t))))⟩ := by
  simp only [serveProbeDefine, ha, (numberOk_iff 40 probe).2 hp, (numberOk_iff 65535 code).2 hc, (numberOk_iff 5 tips.length).2 ht,
    hfree, Cell.codeTaken_eq_false hcode, bne_self_eq_false, Bool.not_true, Bool.or_false, Bool.false_eq_true, if_false, ne_eq,
    not_true_eq_false]
  rfl

/-! ### PROBE_RETIRE (R108, R109) -/

/-- A record becomes FREE: it takes its reset values, and no port of its home arm expects it (R109). -/
theorem Cell.freeProbe_eq (c : Cell) (p : Nat) :
    c.freeProbe p = { c.modArm (c.probe p).home (fun m => { m with rack := { m.rack with
        ports := m.rack.ports.map (fun x => if x.state = .expecting p then { x with state := .empty } else x) } }) with
      probes := c.probes.set p ⟨.free, 0, .armA, .nowhere, 0, []⟩ } := by
  simp only [Cell.freeProbe, Cell.modProbe, Cell.dropExpectation, Cell.modRack, Cell.probes_modArm]
  rfl

/-- Settles O39: PROBE_DEFINE with the box it answers, and PROBE_RETIRE by the probe's state and location. -/
theorem probeDefineAndProbeRetire : Obligations.ProbeDefineAndProbeRetire := by
  unfold Obligations.ProbeDefineAndProbeRetire
  refine ⟨?_, ?_⟩
  · intro probe code home touchLimit tips a s ht hp1 hp40 hc1 hc2 ha ht1 ht5 hfree hcode off made
    have hmade : made = tips.map (fun t => freshTip (clampTip t)) := by
      refine List.map_congr_left (fun t _ => ?_)
      simp only [freshTip, clampTip, Point.clamp, clampInt_eq _ _ _ (by decide : (-5000000 : Int) ≤ 5000000),
        clampInt_eq _ _ _ (by decide : (0 : Int) ≤ 100000), Int.min_comm (100000 : Int)]
      rfl
    have hgeometry : made.map (fun t => (⟨t.offset, t.radius⟩ : TipGeometry)) = tips.map clampTip := by
      rw [hmade, List.map_map]
      rfl
    have hne : made ≠ [] := List.ne_nil_of_length_pos (by rw [hmade, List.length_map]; omega)
    obtain ⟨hlx, hlx'⟩ := tipsBox_low (fun b => b.lo.x) (fun _ _ => rfl) hne
    obtain ⟨hly, hly'⟩ := tipsBox_low (fun b => b.lo.y) (fun _ _ => rfl) hne
    obtain ⟨hlz, hlz'⟩ := tipsBox_low (fun b => b.lo.z) (fun _ _ => rfl) hne
    obtain ⟨hhx, hhx'⟩ := tipsBox_high (fun b => b.hi.x) (fun _ _ => rfl) hne
    obtain ⟨hhy, hhy'⟩ := tipsBox_high (fun b => b.hi.y) (fun _ _ => rfl) hne
    obtain ⟨hhz, hhz'⟩ := tipsBox_high (fun b => b.hi.z) (fun _ _ => rfl) hne
    refine ⟨tipsBox made, fun t m => ⟨hlx' t m, hly' t m, hlz' t m, hhx' t m, hhy' t m, hhz' t m⟩, hlx, hly, hlz, hhx, hhy, hhz, ?_⟩
    rw [hgeometry, hmade]
    exact s.command_cell 769 (8 + 8 * tips.length) _ _ ht _ _ _ (fun c => c.modProbe probe (fun _ => _))
      (serveProbeDefine_accepted (s.dev.clocked _) ⟨hp1, hp40⟩ ⟨hc1, hc2⟩ ha ⟨ht1, ht5⟩ hfree hcode) rfl
      (clampStatus_number_of_iff (by simp))
  · intro probe s ht hp1 hp40 hstate p
    have hok : numberOk 40 probe = true := (numberOk_iff _ _).2 ⟨hp1, hp40⟩
    have hp : s.dev.cell.probe probe = p := rfl
    rw [hp] at hstate
    refine ⟨fun hretiring => ?_, fun hnot hplace => ?_, fun hnot hplace => ?_⟩
    · refine s.command_leaves 771 3 0 _ ht .ok _ ?_ rfl
      simp only [serveProbeRetire, hok, Device.cell_clocked, hp, Bool.not_true, Bool.false_eq_true, if_false, if_neg hstate, if_pos hretiring]
    · refine s.command_cell 771 3 0 _ ht _ .ok _ (fun c => c.modProbe probe (fun r => { r with state := .retiring })) ?_ rfl rfl
      simp only [serveProbeRetire, hok, Device.cell_clocked, hp, Bool.not_true, Bool.false_eq_true, if_false, if_neg hstate, if_neg hnot, if_neg hplace]
    · refine s.command_cell 771 3 0 _ ht _ .ok _ (fun c => c.freeProbe probe) ?_ (Cell.freeProbe_eq _ _) rfl
      simp only [serveProbeRetire, hok, Device.cell_clocked, hp, Bool.not_true, Bool.false_eq_true, if_false, if_neg hstate, if_neg hnot, if_pos hplace]

end Sys2Proof.Machine
end

section
/-! PROOFS. TIP_QUALIFY, the bay test made again, and REPORT_HIT (R98 to R100, R106, R171, R172): O40 and O41. -/

namespace Sys2Proof.Machine

/-! ### Ascending lists -/

/-- The first entry of an ascending list with a property is the least one with it. -/
theorem find?_eq_some_of_least {l : List Nat} (p : Nat → Bool) {j : Nat} (hl : l.Pairwise (· < ·)) (hj : j ∈ l) (hp : p j = true)
    (hleast : ∀ n ∈ l, n < j → p n = false) : l.find? p = some j := by
  induction l with
  | nil => cases hj
  | cons x xs ih =>
    obtain ⟨hx, hxs⟩ := List.pairwise_cons.1 hl
    rcases List.mem_cons.1 hj with rfl | hj
    · exact List.find?_cons_of_pos hp
    · rw [List.find?_cons_of_neg (by simp [hleast x List.mem_cons_self (hx j hj)])]
      exact ih hxs hj (fun n hn => hleast n (List.mem_cons_of_mem _ hn))

theorem Bays.needed_sorted (b : Bays) (lo hi : Int) : (b.needed lo hi).Pairwise (· < ·) :=
  List.Pairwise.filter _ List.pairwise_lt_range

theorem Cell.needs_sorted (c : Cell) (a : ArmId) (u : Point) : (c.needs a u).Pairwise (· < ·) := by
  simp only [Cell.needs, Bays.neededBy]
  split
  · exact Bays.needed_sorted _ _ _
  · exact List.Pairwise.nil

/-- The missing bays come in ascending number (R159). -/
theorem Cell.missingAt_sorted (c : Cell) (a : ArmId) (u : Point) : (c.missingAt a u).Pairwise (· < ·) :=
  List.Pairwise.filter _ (c.needs_sorted a u)

/-! ### The bay test (R171, R172) -/

section BayTest
variable {c : Cell} {a : ArmId} {u : Point} {k : Nat} (latch : ArmId → StopCause → Cell → Cell)

theorem bayTest_clear (h : c.missingAt a u = []) : bayTest latch c a u = c := by
  simp only [bayTest, h]

theorem exists_cons_of_head? {l : List Nat} (h : l.head? = some k) : ∃ rest, l = k :: rest := by
  cases l with
  | nil => simp at h
  | cons x xs => exact ⟨xs, by simpa using h⟩

/-- No missing bay is the other arm's: the arm's latch alone (R171). -/
theorem bayTest_alone (h : (c.missingAt a u).head? = some k) (hfree : ∀ j ∈ c.missingAt a u, c.bays.holder j ≠ some a.other) :
    bayTest latch c a u = latch a (.bay k a) c := by
  have hfind : (c.missingAt a u).find? (fun j => c.bays.holder j == some a.other) = none :=
    List.find?_eq_none.2 (by simpa using hfree)
  obtain ⟨rest, hm⟩ := exists_cons_of_head? h
  rw [hm] at hfind
  simp only [bayTest, hm, hfind]

/-- The other arm holds a missing bay: both latches, the intruder's first (R171). -/
theorem bayTest_both (h : (c.missingAt a u).head? = some k) {j : Nat} (hj : j ∈ c.missingAt a u)
    (hheld : c.bays.holder j = some a.other) (hleast : ∀ n ∈ c.missingAt a u, n < j → c.bays.holder n ≠ some a.other) :
    bayTest latch c a u = latch a.other (.bay j a) (latch a (.bay k a) c) := by
  have hfind : (c.missingAt a u).find? (fun j => c.bays.holder j == some a.other) = some j :=
    find?_eq_some_of_least _ (c.missingAt_sorted a u) hj (by simpa using hheld) (by simpa using hleast)
  obtain ⟨rest, hm⟩ := exists_cons_of_head? h
  rw [hm] at hfind
  simp only [bayTest, hm, hfind]

theorem Cell.retest_run (hrun : c.mode a = .run) (hu : (c.arm a).lastSample = some u) : c.retest a = bayTest setStop c a u := by
  simp only [Cell.mode_eq] at hrun
  simp only [Cell.retest, bayRetest, Cell.running_eq, hrun, hu, beq_self_eq_true, if_true]

/-- Without a running arm, a last sample or a missing bay the test changes nothing (R172). -/
theorem Cell.retest_clear
    (h : c.mode a ≠ .run ∨ (c.arm a).lastSample = none ∨ ∃ u, (c.arm a).lastSample = some u ∧ c.missingAt a u = []) :
    c.retest a = c := by
  simp only [Cell.retest, bayRetest]
  split
  next hrun =>
    rcases h with h | h | ⟨u, hu, hm⟩
    · exact absurd (by simpa using hrun) h
    · simp only [h]
    · simp only [hu, bayTest_clear _ hm]
  next => rfl

/-- A latch that is clear takes its cause and ends the change in CYCLE; a set one stays (R169). -/
theorem setStop_clear_or_set (a : ArmId) (cause : StopCause) (c : Cell) :
    setStop a cause c = if (c.arm a).stop = none then (c.latchStop a cause).abort a .stop else c := by
  rw [setStop_eq]
  cases h : (c.arm a).stop <;> simp

end BayTest

/-! ### TIP_QUALIFY (R98 to R100) -/

theorem le_length_of_nth {α : Type} {l : List α} {k : Nat} {x : α} (h : nth l k = some x) : 1 ≤ k ∧ k ≤ l.length := by
  cases k with
  | zero => simp [nth] at h
  | succ i =>
    have := (List.getElem?_eq_some_iff.1 (show l[i]? = some x from h)).1
    omega

/-- A group with a value gives a qualification its temperature (R100). -/
theorem Device.qualificationTemperature_some {d : Device} {a : ArmId} {v : Int} (h0 : (d.cell.arm a).groups.env ≠ 0)
    (hs : (d.group (d.cell.arm a).groups.env).state ≠ .empty) (hv : (d.group (d.cell.arm a).groups.env).value = some v) :
    d.qualificationTemperature a = some ((d.group (d.cell.arm a).groups.env).state, v) := by
  cases hg : (d.group (d.cell.arm a).groups.env).state with
  | empty => exact absurd hg hs
  | valid | held | lost => simp only [Device.qualificationTemperature, Device.envGroup, if_neg h0, hv, hg]

/-- A probe that may be qualified is IN_SERVICE then. -/
theorem Probe.qualifyTip_eq {p : Probe} (tip : Nat) (t : TipGeometry) (v : Int)
    (h : p.state = .defined ∨ p.state = .inService ∨ p.state = .suspect) :
    p.qualifyTip tip t v = { p with
      state := .inService
      tips := changeNth p.tips tip (fun _ => ⟨t.offset, t.radius, .qualified, some v, 0⟩) } := by
  rcases h with h | h | h <;> simp only [Probe.qualifyTip, h] <;> rfl

theorem clampTip_eq (offset : Point) (radius : Int) :
    clampTip ⟨offset, radius⟩ = ⟨⟨max (-5000000) (min 5000000 offset.x), max (-5000000) (min 5000000 offset.y),
      max (-5000000) (min 5000000 offset.z)⟩, max 0 (min radius 100000)⟩ := by
  simp only [clampTip, Point.clamp, clampInt_eq _ _ _ (by decide : (-5000000 : Int) ≤ 5000000),
    clampInt_eq _ _ _ (by decide : (0 : Int) ≤ 100000), Int.min_comm (100000 : Int)]

/-- No check of TIP_QUALIFY fails but the one of the envelope (R98, R99). -/
theorem serveTipQualify_judged {d : Device} {probe tip : Nat} {offset : Point} {radius : Int} {v : Int} {st : GroupState}
    (hp : 1 ≤ probe ∧ probe ≤ 40) (ht : 1 ≤ tip ∧ tip ≤ 5) (hlen : tip ≤ (d.cell.probe probe).tips.length)
    (hstate : (d.cell.probe probe).state = .defined ∨ (d.cell.probe probe).state = .inService ∨ (d.cell.probe probe).state = .suspect)
    (hseat : (d.cell.probe probe).location = .seated)
    (hcycle : (d.cell.arm (d.cell.probe probe).home).seq.state.inCycle = false)
    (htemp : d.qualificationTemperature (d.cell.probe probe).home = some (st, v)) :
    serveTipQualify probe tip offset radius d =
      let r := (d.cell.probe probe).qualifyTip tip (clampTip ⟨offset, radius⟩) v
      if (effectiveEnvelope (d.cell.arm (d.cell.probe probe).home).settings r.box).emptyOnAxis then .refuse d .tooLarge
      else ⟨d.onCell (fun c => (c.modProbe probe (fun _ => r)).retest (d.cell.probe probe).home),
        clampStatus (clampTip ⟨offset, radius⟩ != ⟨offset, radius⟩), word2 v ++ word st.number ++ boxWords r.box⟩ := by
  have hfree : (d.cell.probe probe).state ≠ .free := by rcases hstate with h | h | h <;> simp [h]
  have hretiring : (d.cell.probe probe).state ≠ .retiring := by rcases hstate with h | h | h <;> simp [h]
  simp only [serveTipQualify, (numberOk_iff 40 probe).2 hp, (numberOk_iff 5 tip).2 ht, Probe.isSeated, hseat, hcycle, htemp,
    if_neg hfree, if_neg hretiring, if_neg (Nat.not_lt.2 hlen), Bool.not_true, Bool.or_false, Bool.false_eq_true, if_false,
    beq_self_eq_true]

/-- Settles O40: TIP_QUALIFY, and the bay test that it makes again. -/
theorem tipQualifyQualifiesOneTip : Obligations.TipQualifyQualifiesOneTip := by
  unfold Obligations.TipQualifyQualifiesOneTip
  refine ⟨?_, fun c a => Cell.retest_clear, fun c a u k hrun hu => ?_⟩
  · intro probe tip radius offset old v s ht hp1 hp40 htip p g hnth hstate hseat hcycle hg hempty hv off made r
    obtain ⟨ht1, hlen⟩ := le_length_of_nth hnth
    have hserve := serveTipQualify_judged (d := s.dev.clocked 12) (offset := offset) (radius := radius) ⟨hp1, hp40⟩ ⟨ht1, htip⟩ hlen
      hstate hseat hcycle (Device.qualificationTemperature_some (d := s.dev.clocked 12) hg hempty hv)
    have hmade : clampTip ⟨offset, radius⟩ = made := clampTip_eq offset radius
    have hr : (s.dev.cell.probe probe).qualifyTip tip made v = r := Probe.qualifyTip_eq tip made v hstate
    simp only [Device.cell_clocked, hmade, hr] at hserve
    refine ⟨fun hbox => ?_, fun hbox => ?_⟩
    · exact s.command_leaves 770 12 13 _ ht .tooLarge [] (hserve.trans (if_pos hbox)) rfl
    · exact s.command_cell 770 12 _ _ ht _ _ _ (fun c => (c.modProbe probe (fun _ => r)).retest p.home)
        (hserve.trans (if_neg (by rw [hbox]; exact Bool.false_ne_true))) rfl (clampStatus_ne_number made ⟨offset, radius⟩)
  · intro missing stop hk
    rw [Cell.retest_run hrun hu]
    simp only [stop, ← setStop_clear_or_set]
    exact ⟨fun hfree => bayTest_alone setStop hk hfree, fun j hj hheld hleast => bayTest_both setStop hk hj hheld hleast⟩

/-! ### Served requests of an arm -/

/-- The service of a request other than CORRECT changes the arms, probes, bays and notices that it finds (R188). -/
theorem State.service_cell {s : State} {a : ArmId} {r : Request} (hs : s.serves a r) (f : Cell → Cell) {c : Cell}
    (hf : serveRequest a r = fun d => d.onCell f) (hc : f (s.atService a) = c) :
    s.event (serviceEvent a r) = .next (s.withCell c) := by
  rw [serviceEvent_serves s a r hs, hf, ← hc]
  rfl

/-- A hit probe (R106). -/
theorem Probe.hit_eq (p : Probe) :
    p.hit = { p with
      tips := p.tips.map (fun t => { t with state := .suspect })
      state := if p.state = .defined ∨ p.state = .inService then .suspect else p.state } := by
  cases h : p.state <;> simp [Probe.hit, h]

/-- Settles O41: REPORT_HIT with a seated probe, and without one. -/
theorem reportHitMakesTheProbeSuspect : Obligations.ReportHitMakesTheProbeSuspect := by
  unfold Obligations.ReportHitMakesTheProbeSuspect
  intro a tag s hs c
  have hrun : (s.dev.cell.arm a).port.mode = .run := hs.2.1
  refine ⟨fun p hp => ?_, fun hnone => ?_⟩
  · refine State.service_cell hs (serveReportHit a tag) rfl ?_
    simp only [serveReportHit, Cell.running_eq, State.mode_atService, hrun, State.seq_atService, hp, Cell.modProbe,
      State.probe_atService, Probe.hit_eq]
    rfl
  · refine State.service_cell hs (serveReportHit a tag) rfl ?_
    simp only [serveReportHit, Cell.running_eq, State.mode_atService, hrun, State.seq_atService]
    rcases hnone with h | h <;> rw [h] <;> rfl

end Sys2Proof.Machine
end

section
/-! PROOFS. PORT_CONFIG, EXPECT, PORT_DISABLE and PORT_ENABLE (R112, R118, R120): O42 and O43. -/

namespace Sys2Proof.Machine

/-! ### PORT_CONFIG (R112) -/

theorem Rack.reconfigured_length (r : Rack) (boxes : List Box) : (r.reconfigured boxes).length = boxes.length := by
  simp [Rack.reconfigured]

section Reconfigured
variable (r : Rack) {boxes : List Box} {i : Nat} {box : Box} (h : boxes[i]? = some box)
include h

/-- A kept port takes its new box (R112). -/
theorem Rack.reconfigured_kept {p : Port} (hp : r.ports[i]? = some p) :
    (r.reconfigured boxes)[i]? = some { p with box := box } := by
  simp [Rack.reconfigured, h, hp]

theorem Rack.reconfigured_added (hp : r.ports[i]? = none) :
    (r.reconfigured boxes)[i]? = some (freshPort (r.levels (i + 1)) box) := by
  simp only [Rack.reconfigured, List.getElem?_map, List.getElem?_zipIdx, h, hp, Nat.zero_add, Option.map_some]

end Reconfigured

theorem clampParams_eq (q : PortParams) :
    clampParams q = ⟨min q.filterTime 100, min q.maskTime 500, q.stepLimits.map (fun t => min (max t 100) 60000),
      min (max q.engageTime 50) 2000, min q.learning 3, min (max q.slowFactor 16) 64⟩ := by
  have hstep : clampNat 100 60000 = fun t => min (max t 100) 60000 := funext (fun t => clampNat_eq _ _ t (by decide))
  simp only [clampParams, clampNat_zero, hstep, clampNat_eq 50 2000 _ (by decide), clampNat_eq 16 64 _ (by decide)]

/-- No removed port is in use (R112). -/
theorem not_inUse_of_removed {l : List Port} {n : Nat}
    (h : ∀ i p, n ≤ i → l[i]? = some p → p.state = .empty ∨ p.state = .unknown ∨ p.state = .disabled) :
    (l.drop n).any (fun p => p.state.inUse) = false := by
  rw [List.any_eq_false]
  intro p hp
  obtain ⟨i, hi⟩ := List.getElem?_of_mem hp
  rw [List.getElem?_drop] at hi
  rcases h (n + i) p (Nat.le_add_right n i) hi with h | h | h <;> simp [h, PortState.inUse]

/-- Settles O42: no check of PORT_CONFIG fails. -/
theorem portConfigKeepsAndAddsPorts : Obligations.PortConfigKeepsAndAddsPorts := by
  unfold Obligations.PortConfigKeepsAndAddsPorts
  intro arm boxes q a s ht ha hlen hoff hidle old hremoved params
  have hparams : clampParams q = params := clampParams_eq q
  refine ⟨(s.dev.cell.arm a).rack.reconfigured boxes, Rack.reconfigured_length _ _, fun i box hbox => ⟨fun p hp => Rack.reconfigured_kept _ hbox hp,
    fun hnone => Rack.reconfigured_added _ hbox hnone⟩, ?_⟩
  · have hcheck : ¬(10 < boxes.length ∨ boxes.length ≠ boxes.length) := by omega
    have hready : ¬((!(s.dev.cell.isOff a)) = true ∨ (s.dev.cell.arm a).seq.state ≠ .idle) := by
      rw [Cell.isOff_of_off hoff]
      simp [hidle]
    refine s.command_cell 258 (18 + 12 * boxes.length) _ _ ht _ (clampStatus (clampParams q != q)) _
      (fun c => c.modRack a (fun r => { r with ports := r.reconfigured boxes, params := clampParams q })) ?_ ?_ ?_
    · simp only [servePortConfig, ha, Device.cell_clocked, if_neg hcheck]
      exact (if_neg hready).trans (if_neg (by rw [not_inUse_of_removed hremoved]; exact Bool.false_ne_true))
    · exact Cell.modArm_congr _ _ _ _ (by rw [hparams])
    · rw [clampStatus_ne_number, hparams]

/-! ### EXPECT, PORT_DISABLE and PORT_ENABLE (R118, R120) -/

/-- The rack of an IDLE sequencer has no plan port (R115). -/
theorem Cell.isPlanPort_idle {c : Cell} {a : ArmId} (k : Nat) (h : (c.arm a).seq.state = .idle) : c.isPlanPort a k = false := by
  simp only [Cell.isPlanPort, h, SeqState.plan?]

/-- A port's state changed, as the port list sees it. -/
theorem Cell.setPortState_eq (c : Cell) (a : ArmId) (k : Nat) (st : PortState) :
    c.setPortState a (some k) st = c.modArm a (fun m =>
      { m with rack := { m.rack with ports := changeNth m.rack.ports k (fun x => { x with state := st }) } }) := rfl

/-- No check of EXPECT of a probe fails (R118). -/
theorem Cell.expectRefusal_none {c : Cell} {a : ArmId} {k p : Nat} {port : Port} (hidle : (c.arm a).seq.state = .idle)
    (hfree : (c.probe p).state ≠ .free) (hretiring : (c.probe p).state ≠ .retiring) (hhome : (c.probe p).home = a)
    (hout : (c.probe p).location = .out) (hport : port.state = .empty ∨ ∃ x, port.state = .expecting x) :
    c.expectRefusal a k port p = none := by
  simp only [Cell.expectRefusal, if_neg hfree, if_neg hretiring, hhome, hout, Cell.isPlanPort_idle k hidle, ne_eq, not_true_eq_false,
    or_self, if_false, Bool.false_eq_true]
  rcases hport with h | ⟨x, h⟩ <;> rw [h]

/-- The expectation of a probe ends and a port's state changes. -/
theorem Cell.expect_eq (c : Cell) (a : ArmId) (k p : Nat) (st : PortState) :
    (c.dropExpectation a p).setPortState a (some k) st = c.modArm a (fun m =>
      { m with rack := { m.rack with ports := changeNth (m.rack.ports.map
          (fun x => if x.state = .expecting p then { x with state := .empty } else x)) k (fun x => { x with state := st }) } }) := by
  rw [Cell.setPortState_eq, Cell.dropExpectation, Cell.modRack_eq, Cell.modArm_modArm]
  rfl

/-- Settles O43: the three commands at a port of an IDLE sequencer's rack. -/
theorem expectPortDisablePortEnable : Obligations.ExpectPortDisablePortEnable := by
  unfold Obligations.ExpectPortDisablePortEnable
  intro arm k a port s ha hport hidle put become
  have hplan : s.dev.cell.isPlanPort a k = false := Cell.isPlanPort_idle k hidle
  refine ⟨fun ht p hp1 hp40 hfree hretiring hhome hout hstate => ?_, fun ht ⟨x, hx⟩ => ?_, fun ht hstate => ?_, fun ht hstate => ?_,
    fun ht hstate => ?_⟩
  · refine s.command_cell 772 5 _ _ ht _ .ok _ (fun c => (c.dropExpectation a p).setPortState a (some k) (.expecting p)) ?_
      (Cell.expect_eq _ _ _ _ _) rfl
    simp only [serveExpect, ha, Device.cell_clocked, hport, if_neg (by omega : ¬40 < p), if_neg (by omega : ¬p = 0),
      Cell.expectRefusal_none hidle hfree hretiring hhome hout hstate]
  · refine s.command_cell 772 5 _ _ ht _ .ok _ (fun c => c.setPortState a (some k) .empty) ?_ (Cell.setPortState_eq _ _ _ _) rfl
    simp only [serveExpect, ha, Device.cell_clocked, hport, hx]
    rfl
  · refine s.command_cell 773 4 _ _ ht _ .ok _ (fun c => c.setPortState a (some k) .disabled) ?_ (Cell.setPortState_eq _ _ _ _) rfl
    simp only [servePortDisable, ha, Device.cell_clocked, hport, hplan, Bool.not_false, and_true, if_pos hstate]
  · refine s.command_cell 774 4 _ _ ht _ .ok _
      (fun c => c.setPortState a (some k) (if port.occupied then .unknown else .empty)) ?_ (Cell.setPortState_eq _ _ _ _) rfl
    simp only [servePortEnable, ha, Device.cell_clocked, hport, if_pos hstate]
  · refine s.command_leaves 774 4 _ _ ht .badState _ ?_ rfl
    simp only [servePortEnable, ha, Device.cell_clocked, hport, if_neg hstate]
    rfl

end Sys2Proof.Machine
end

section
/-! PROOFS. The lines of the ports: filters, masks, taken levels and their dispatch (R109, R113 to R117): O44. -/

namespace Sys2Proof.Machine

/-! ### One port of a rack -/

theorem changeNth_changeNth {α : Type} (l : List α) (k : Nat) (f g : α → α) :
    changeNth (changeNth l k f) k g = changeNth l k (fun x => g (f x)) := by
  cases k with
  | zero => rfl
  | succ i => exact List.modify_modify_eq f g i l

theorem Cell.modRackPort_modRackPort (c : Cell) (a : ArmId) (k : Nat) (f g : Port → Port) :
    (c.modRackPort a k f).modRackPort a k g = c.modRackPort a k (fun x => g (f x)) := by
  simp only [Cell.modRackPort, Cell.modRack_eq, Cell.modArm_modArm, changeNth_changeNth]

theorem Cell.port?_modRackPort {c : Cell} {a : ArmId} {k : Nat} (f : Port → Port) {port : Port} (h : c.port? a k = some port) :
    (c.modRackPort a k f).port? a k = some (f port) := by
  simp only [Cell.port?, Cell.modRackPort, Cell.modRack_eq, Cell.arm_modArm_same]
  exact nth_changeNth_same _ _ _ _ h

theorem Cell.levels_modRackPort (c : Cell) (a : ArmId) (k : Nat) (f : Port → Port) (j : Nat) :
    ((c.modRackPort a k f).arm a).rack.levels j = (c.arm a).rack.levels j := by
  simp only [Cell.modRackPort, Cell.modRack_eq, Cell.arm_modArm_same]
  rfl

theorem Cell.seq_modRackPort (c : Cell) (a : ArmId) (k : Nat) (f : Port → Port) :
    ((c.modRackPort a k f).arm a).seq = (c.arm a).seq := by
  simp only [Cell.modRackPort, Cell.modRack_eq, Cell.arm_modArm_same]

/-! ### A change of a line's level (R113) -/

section LineChange
variable {c : Cell} {a : ArmId} {k : Nat} {line : PortLine} {level : Bool} {port : Port}

theorem Cell.lineChange_same (h : ((c.arm a).rack.levels k).level line = level) : c.lineChange a k line level = c := if_pos h

theorem Cell.port?_setPin (c : Cell) (a : ArmId) (k : Nat) (line : PortLine) (level : Bool) :
    (c.setPin a k line level).port? a k = c.port? a k := by
  simp only [Cell.port?, Cell.setPin, Cell.modRack_eq, Cell.arm_modArm_same]

theorem Cell.lineChange_unconfigured (h : ((c.arm a).rack.levels k).level line ≠ level) (hp : c.port? a k = none) :
    c.lineChange a k line level = c.setPin a k line level := by
  simp only [Cell.lineChange, if_neg h, Cell.port?_setPin, hp]

/-- A line of a configured port: the mask, then the taken level, then the filter time decide. -/
theorem Cell.lineChange_configured (h : ((c.arm a).rack.levels k).level line ≠ level) (hp : c.port? a k = some port) :
    c.lineChange a k line level =
      if (c.arm a).rack.maskTimer.isSome then c.setPin a k line level
      else if port.taken line = level then (c.setPin a k line level).modRackPort a k (fun p => p.setFilter line none)
      else if (c.arm a).rack.params.filterTime = 0 then (c.setPin a k line level).takeLine a k line
      else (c.setPin a k line level).modRackPort a k
        (fun p => p.setFilter line (some (c.arm a).rack.params.filterTime)) := by
  simp only [Cell.lineChange, if_neg h, Cell.port?_setPin, hp]
  have hr : ((c.setPin a k line level).arm a).rack = { (c.arm a).rack with
      lines := ((c.setPin a k line level).arm a).rack.lines } := by
    simp only [Cell.setPin, Cell.modRack_eq, Cell.arm_modArm_same]
  rw [hr]

/-- A line under a mask follows its pin alone. -/
theorem Cell.lineChange_masked (h : ((c.arm a).rack.levels k).level line ≠ level) (hm : (c.arm a).rack.maskTimer.isSome = true) :
    c.lineChange a k line level = c.setPin a k line level := by
  cases hp : c.port? a k with
  | none => exact Cell.lineChange_unconfigured h hp
  | some port => rw [Cell.lineChange_configured h hp, if_pos hm]

end LineChange

/-! ### Taking a line (R113, R115) -/

section TakeLine
variable {c : Cell} {a : ArmId} {k : Nat} {line : PortLine} {port : Port}

/-- The level is taken, and a change of the taken level dispatched. -/
theorem Cell.takeLine_eq (hp : c.port? a k = some port) :
    c.takeLine a k line =
      if port.taken line = ((c.arm a).rack.levels k).level line then
        c.modRackPort a k (fun p => p.take line (((c.arm a).rack.levels k).level line))
      else (c.modRackPort a k (fun p => p.take line (((c.arm a).rack.levels k).level line))).dispatchLine a k line
        (((c.arm a).rack.levels k).level line) := by
  simp only [Cell.takeLine, hp]

theorem Port.taken_setFilter (p : Port) (line : PortLine) (t : Timer) : (p.setFilter line t).taken line = p.taken line := by
  cases line <;> rfl

theorem Port.take_setFilter (p : Port) (line : PortLine) (t : Timer) (level : Bool) :
    (p.setFilter line t).take line level = p.take line level := by cases line <;> rfl

theorem Port.filter_setFilter (p : Port) (line : PortLine) (t : Timer) : (p.setFilter line t).filter line = t := by
  cases line <;> rfl

theorem Port.state_take (p : Port) (line : PortLine) (level : Bool) : (p.take line level).state = p.state := by cases line <;> rfl

/-- Taking a line does not see its filter. -/
theorem Cell.takeLine_setFilter (hp : c.port? a k = some port) (t : Timer) :
    (c.modRackPort a k (fun p => p.setFilter line t)).takeLine a k line = c.takeLine a k line := by
  rw [Cell.takeLine_eq hp, Cell.takeLine_eq (Cell.port?_modRackPort _ hp)]
  simp only [Cell.levels_modRackPort, Cell.modRackPort_modRackPort, Port.taken_setFilter, Port.take_setFilter]

theorem Cell.filterExpiry_none (hp : c.port? a k = none) : c.filterExpiry a k line = c := by simp only [Cell.filterExpiry, hp]

theorem Cell.filterExpiry_still (hp : c.port? a k = some port) (ht : port.filter line = none) : c.filterExpiry a k line = c := by
  simp only [Cell.filterExpiry, hp, ht]
  rfl

theorem Cell.filterExpiry_takes (hp : c.port? a k = some port) (ht : (port.filter line).isSome = true) :
    c.filterExpiry a k line = c.takeLine a k line := by
  simp only [Cell.filterExpiry, hp, ht, if_true]

/-- The level that a line has at its pin. -/
def Cell.pin (c : Cell) (a : ArmId) (k : Nat) (line : PortLine) : Bool := ((c.arm a).rack.levels k).level line

/-- The port with the level of a line taken. -/
def Cell.takePin (c : Cell) (a : ArmId) (k : Nat) (line : PortLine) : Cell :=
  c.modRackPort a k (fun p => p.take line (c.pin a k line))

theorem Cell.port?_takePin (hp : c.port? a k = some port) :
    (c.takePin a k line).port? a k = some (port.take line (c.pin a k line)) := Cell.port?_modRackPort _ hp

theorem Cell.takeLine_quiet (hp : c.port? a k = some port) (h : port.taken line = c.pin a k line ∨ port.state = .disabled) :
    c.takeLine a k line = c.takePin a k line := by
  rw [Cell.takeLine_eq hp]
  split
  · rfl
  next hne =>
    have hd := h.resolve_left hne
    have hport : (c.takePin a k line).port? a k = _ := Cell.port?_takePin hp
    change (c.takePin a k line).dispatchLine a k line (c.pin a k line) = _
    simp only [Cell.dispatchLine, hport, Port.state_take, hd, if_true]

section Dispatched
variable (hp : c.port? a k = some port) (ht : port.taken line ≠ c.pin a k line) (hd : port.state ≠ .disabled)
include hp ht hd

/-- A level that differs from the taken one is dispatched at a port in service by the state of the sequencer (R115). -/
theorem Cell.takeLine_idle (hs : (c.arm a).seq.state = .idle) :
    c.takeLine a k line = (c.takePin a k line).manualChange a k line (c.pin a k line) := by
  have hseq : ((c.takePin a k line).arm a).seq.state = .idle := (congrArg Sequencer.state (c.seq_modRackPort a k _)).trans hs
  refine (Cell.takeLine_eq hp).trans ((if_neg ht).trans ?_)
  change (c.takePin a k line).dispatchLine a k line (c.pin a k line) = _
  simp only [Cell.dispatchLine, Cell.port?_takePin hp, Port.state_take, if_neg hd, hseq]

theorem Cell.takeLine_unplanned {p : Plan} (hs : (c.arm a).seq.state.plan? = some p) (hn : p.names k = false) :
    c.takeLine a k line = (c.takePin a k line).manualChange a k line (c.pin a k line) := by
  have hseq : ((c.takePin a k line).arm a).seq.state = (c.arm a).seq.state := congrArg Sequencer.state (c.seq_modRackPort a k _)
  refine (Cell.takeLine_eq hp).trans ((if_neg ht).trans ?_)
  change (c.takePin a k line).dispatchLine a k line (c.pin a k line) = _
  simp only [Cell.dispatchLine, Cell.port?_takePin hp, Port.state_take, if_neg hd, hseq]
  cases hst : (c.arm a).seq.state with
  | idle => rfl
  | cycle step q =>
    obtain rfl : q = p := Option.some.inj ((congrArg SeqState.plan? hst).symm.trans hs)
    simp only [hn, Bool.false_eq_true, if_false]
  | changeFault cause step q =>
    obtain rfl : q = p := Option.some.inj ((congrArg SeqState.plan? hst).symm.trans hs)
    simp only [hn, Bool.false_eq_true, if_false]

theorem Cell.takeLine_cycle {step : Step} {p : Plan} (hs : (c.arm a).seq.state = .cycle step p) (hn : p.names k = true) :
    c.takeLine a k line = (c.takePin a k line).planPortChange a step p k line (c.pin a k line) := by
  have hseq : ((c.takePin a k line).arm a).seq.state = .cycle step p :=
    (congrArg Sequencer.state (c.seq_modRackPort a k _)).trans hs
  refine (Cell.takeLine_eq hp).trans ((if_neg ht).trans ?_)
  change (c.takePin a k line).dispatchLine a k line (c.pin a k line) = _
  simp only [Cell.dispatchLine, Cell.port?_takePin hp, Port.state_take, if_neg hd, hseq, hn, if_true]

/-- At a plan port of a faulted change only HEAD is looked at (R115, R117). -/
theorem Cell.takeLine_faulted {cause : AbortCause} {step : Step} {p : Plan} (hs : (c.arm a).seq.state = .changeFault cause step p)
    (hn : p.names k = true) :
    c.takeLine a k line =
      if line = .head ∧ c.pin a k line = true then setStop a (.rack k) (c.takePin a k line) else c.takePin a k line := by
  have hseq : ((c.takePin a k line).arm a).seq.state = .changeFault cause step p :=
    (congrArg Sequencer.state (c.seq_modRackPort a k _)).trans hs
  refine (Cell.takeLine_eq hp).trans ((if_neg ht).trans ?_)
  change (c.takePin a k line).dispatchLine a k line (c.pin a k line) = _
  simp only [Cell.dispatchLine, Cell.port?_takePin hp, Port.state_take, if_neg hd, hseq, hn, if_true]
  cases line with
  | occupied => rfl
  | head => simp only [manualHead, true_and]

end Dispatched

end TakeLine

/-! ### The end of a mask (R114) -/

theorem Cell.maskEnd_still {c : Cell} {a : ArmId} (h : (c.arm a).rack.maskTimer = none) : c.maskEnd a = c := by
  simp only [Cell.maskEnd, h]
  rfl

/-- The lines whose level differs from the taken one are taken in order (R114). -/
theorem Cell.maskEnd_takes {c : Cell} {a : ArmId} (h : (c.arm a).rack.maskTimer.isSome = true) (differs : Nat × PortLine → Bool)
    (hd : ∀ x, differs x = (((nth (c.arm a).rack.ports x.1).map
      (fun y => y.taken x.2 != ((c.arm a).rack.levels x.1).level x.2)).getD false)) :
    c.maskEnd a = ((linesInOrder (c.arm a).rack.ports.length).filter differs).foldl (fun n x => n.takeLine a x.1 x.2)
      (c.modRack a (fun r => { r with maskTimer := none })) := by
  have hr : ((c.modRack a (fun r => { r with maskTimer := none })).arm a).rack = { (c.arm a).rack with maskTimer := none } := by
    simp only [Cell.modRack_eq, Cell.arm_modArm_same]
  have hfun : differs = fun x => ((nth (c.arm a).rack.ports x.1).map
      (fun y => y.taken x.2 != ((c.arm a).rack.levels x.1).level x.2)).getD false := funext hd
  simp only [Cell.maskEnd, h, if_true, hr, hfun]
  congr 2
  funext x
  cases nth (c.arm a).rack.ports x.1 <;> rfl

/-! ### A probe goes OUT (R97, R109) -/

theorem Cell.probeOut_retiring {c : Cell} {p : Nat} (h : (c.probe p).state = .retiring) : c.probeOut p = c.freeProbe p := if_pos h

theorem Cell.probeOut_kept {c : Cell} {p : Nat} (h : (c.probe p).state ≠ .retiring) :
    c.probeOut p = { c with probes := c.probes.set p { c.probe p with location := .out } } := if_neg h

/-! ### The events -/

section Events
variable {s : State} (hh : s.dev.link.held = false)
include hh

theorem State.portLineChange_live (a : ArmId) (k : Nat) (line : PortLine) (level : Bool) :
    exec (.portLineChange a k line level) s = .next (s.withCell (s.dev.cell.lineChange a k line level)) := by
  have hf : (if s.dev.link.held then s.dev.cell.setPin a k line level else s.dev.cell.lineChange a k line level) =
      s.dev.cell.lineChange a k line level := by rw [hh]; rfl
  exact congrArg (fun c => Host.Outcome.next (s.withCell c)) hf

theorem State.filterExpiry_live (a : ArmId) (k : Nat) (line : PortLine) :
    exec (.filterExpiry a k line) s = .next (s.withCell (s.dev.cell.filterExpiry a k line)) := s.event_live _ hh

theorem State.maskEnd_live (a : ArmId) : exec (.maskEnd a) s = .next (s.withCell (s.dev.cell.maskEnd a)) := s.event_live _ hh

end Events

theorem State.withCell_same (s : State) : s.withCell s.dev.cell = s := rfl

/-- A probe is placed after a port's state has changed. -/
theorem Cell.placeProbe_setPortState (c : Cell) (a : ArmId) (k p : Nat) (st : PortState) (l : Location) :
    (c.setPortState a (some k) st).placeProbe p l =
      { c.setPortState a (some k) st with probes := c.probes.set p { c.probe p with location := l } } := by
  simp only [Cell.placeProbe, Cell.modProbe, Cell.setPortState_eq, Cell.probes_modArm, Cell.probe_modArm]

theorem Plan.names_iff (p : Plan) (k : Nat) : p.names k = true ↔ p.drop = some k ∨ p.pick = some k := by
  simp [Plan.names]

theorem Plan.names_eq_false {p : Plan} {k : Nat} (h : ¬(p.drop = some k ∨ p.pick = some k)) : p.names k = false :=
  Bool.eq_false_iff.2 (fun hn => h ((p.names_iff k).1 hn))

/-- Settles O44: the events of the lines, what a taken level does, the manual events, and a probe that goes OUT. -/
theorem linesAreFilteredTakenAndDispatched : Obligations.LinesAreFilteredTakenAndDispatched := by
  unfold Obligations.LinesAreFilteredTakenAndDispatched
  intro onRack onPort levelOf takenOf timerOf filter take stop lines
  have hlevel : levelOf = fun line l => l.level line := by funext line l; cases line <;> rfl
  have htaken : takenOf = fun line y => y.taken line := by funext line l; cases line <;> rfl
  have htimer : timerOf = fun line y => y.filter line := by funext line l; cases line <;> rfl
  have hfilter : filter = fun line t y => y.setFilter line t := by funext line t y; cases line <;> rfl
  have htake : take = fun line level y => y.take line level := by funext line t y; cases line <;> rfl
  have hstop : ∀ a k c, stop a k c = setStop a (.rack k) c := fun a k c => (setStop_clear_or_set a (.rack k) c).symm
  clear_value levelOf takenOf timerOf filter take stop
  subst hlevel htaken htimer hfilter htake
  refine ⟨fun a k line s hh => ?_, fun a k line c port hp => ?_, fun a k c port hp => ⟨?_, ?_⟩, fun p c => ⟨?_, fun hret => ?_⟩⟩
  · intro c r pin
    have hexpiry := State.filterExpiry_live hh a k line
    refine ⟨fun level => ?_, fun hp => ?_, fun port hp => ⟨fun ht => ?_, fun ht => ?_⟩, fun hm => ?_, fun hm => ?_⟩
    · intro pinned change
      have hpin : pinned = c.setPin a k line level := by
        simp only [pinned, onRack, Cell.setPin, Cell.modRack_eq]
        refine Cell.modArm_congr c a _ _ ?_
        cases line <;> rfl
      have hchange : change s = .next (s.withCell (c.lineChange a k line level)) := State.portLineChange_live hh a k line level
      clear_value pinned change
      subst hpin
      rw [hchange]
      refine ⟨fun hsame => ?_, fun hne => ⟨fun hquiet => ?_, fun port hp hmask => ?_⟩⟩
      · rw [Cell.lineChange_same hsame]
        rfl
      · rcases hquiet with hp | hm
        · rw [Cell.lineChange_unconfigured hne hp]
        · rw [Cell.lineChange_masked hne hm]
      · have hmask' : ¬((c.arm a).rack.maskTimer.isSome = true) := by rw [show (c.arm a).rack.maskTimer = none from hmask]; simp
        rw [Cell.lineChange_configured hne hp, if_neg hmask']
        refine ⟨fun ht => ?_, fun ht hf => ?_, fun ht hf => ⟨_, rfl, ?_⟩⟩
        · rw [if_pos ht]
          rfl
        · rw [if_neg ht, if_neg hf]
          rfl
        · have hp' : (c.setPin a k line level).port? a k = some port := (c.port?_setPin a k line level).trans hp
          have hp'' := Cell.port?_modRackPort (fun y => y.setFilter line (some 0)) hp'
          rw [if_neg ht, if_pos hf, ← Cell.takeLine_setFilter hp' (some 0)]
          refine (State.filterExpiry_live (by exact hh) a k line).trans ?_
          exact congrArg (fun n => Host.Outcome.next (s.withCell n))
            (Cell.filterExpiry_takes hp'' (by rw [Port.filter_setFilter]; rfl))
    · rw [hexpiry, Cell.filterExpiry_none hp]
      rfl
    · rw [hexpiry, Cell.filterExpiry_still hp ht]
      rfl
    · rw [hexpiry, Cell.filterExpiry_takes hp ht]
    · rw [State.maskEnd_live hh, Cell.maskEnd_still hm]
      rfl
    · intro differs
      rw [State.maskEnd_live hh, Cell.maskEnd_takes hm differs (fun x => by simp only [differs]; cases nth r.ports x.1 <;> rfl)]
      rfl
  · intro state now taken named
    have hmanual : (c.takePin a k line).manualChange a k line now = match line with
        | .occupied => taken.manualOccupied a k now
        | .head => if now then stop a k taken else taken := by
      cases line with
      | occupied => rfl
      | head => simp only [hstop]; rfl
    refine ⟨fun hquiet => Cell.takeLine_quiet hp hquiet, fun ht hd hs => ?_, fun cause step p ht hd hs hn => ?_⟩
    · rcases hs with hs | ⟨p, hs, hn⟩
      · exact (Cell.takeLine_idle hp ht hd hs).trans hmanual
      · exact (Cell.takeLine_unplanned hp ht hd hs (Plan.names_eq_false hn)).trans hmanual
    · rw [Cell.takeLine_faulted hp ht hd hs ((p.names_iff k).2 hn), hstop]
      rfl
  · cases hs : port.state with
    | expecting p =>
      simp only [Cell.manualOccupied, hp, hs, Cell.placeProbe_setPortState]
      rfl
    | empty | vacant =>
      simp only [Cell.manualOccupied, hp, hs]
      rfl
    | holding | unknown | disabled => simp only [Cell.manualOccupied, hp, hs]
  · cases hs : port.state <;> simp only [Cell.manualOccupied, hp, hs] <;> rfl
  · exact Cell.probeOut_kept
  · rw [Cell.probeOut_retiring hret, Cell.freeProbe_eq]

end Sys2Proof.Machine
end

section
/-! PROOFS. CHANGE_BEGIN (R123, R124, R146): O45. -/

namespace Sys2Proof.Machine

/-! ### The lowest port with a state (R124) -/

theorem portWith_eq_some {st : PortState} {ports : List Port} {k : Nat} {port : Port} (hk : nth ports k = some port)
    (hst : port.state = st) (hlow : ∀ j x, j < k → nth ports j = some x → x.state ≠ st) : portWith st ports = some k := by
  cases k with
  | zero => simp [nth] at hk
  | succ i =>
    obtain ⟨hi, hget⟩ := List.getElem?_eq_some_iff.1 (show ports[i]? = some port from hk)
    have hfind : ports.findIdx? (fun p => p.state == st) = some i := by
      refine List.findIdx?_eq_some_iff_getElem.2 ⟨hi, by rw [hget, hst]; exact beq_self_eq_true st, fun j hj => ?_⟩
      have := hlow (j + 1) ports[j] (Nat.succ_lt_succ hj) (List.getElem?_eq_getElem _)
      simpa using this
    rw [portWith, hfind]
    rfl

theorem portWith_eq_none {st : PortState} {ports : List Port} (h : ∀ y ∈ ports, y.state ≠ st) : portWith st ports = none := by
  have hfind : ports.findIdx? (fun p => p.state == st) = none := List.findIdx?_eq_none_iff.2 (by simpa using h)
  rw [portWith, hfind]
  rfl

/-! ### The arm at the service of a request -/

section AtService
variable (s : State) (a : ArmId)

@[simp] theorem State.rack_atService : ((s.atService a).arm a).rack = (s.dev.cell.arm a).rack := by rw [s.arm_atService a]
@[simp] theorem State.stop_atService : ((s.atService a).arm a).stop = (s.dev.cell.arm a).stop := by rw [s.arm_atService a]
@[simp] theorem State.settings_atService : ((s.atService a).arm a).settings = (s.dev.cell.arm a).settings := by rw [s.arm_atService a]
@[simp] theorem State.lastSample_atService : ((s.atService a).arm a).lastSample = (s.dev.cell.arm a).lastSample := by
  rw [s.arm_atService a]
@[simp] theorem State.exitSet_atService : ((s.atService a).arm a).exitSet = (s.dev.cell.arm a).exitSet := by rw [s.arm_atService a]
@[simp] theorem State.wait_atService : ((s.atService a).arm a).wait = (s.dev.cell.arm a).wait := by rw [s.arm_atService a]
@[simp] theorem State.ms_atService : (s.atService a).ms = s.dev.cell.ms := Cell.ms_modArm _ _ _
@[simp] theorem State.notices_atService : (s.atService a).notices = s.dev.cell.notices := Cell.notices_modArm _ _ _

@[simp] theorem State.boxFor_atService (seat : Seated) : (s.atService a).boxFor a seat = s.dev.cell.boxFor a seat := by
  cases seat with
  | noProbe => rfl
  | unknown => simp only [Cell.boxFor, State.settings_atService]
  | probe p => simp only [Cell.boxFor, State.probe_atService]

@[simp] theorem State.envelopeFor_atService (seat : Seated) : (s.atService a).envelopeFor a seat = s.dev.cell.envelopeFor a seat := by
  simp only [Cell.envelopeFor, State.settings_atService, State.boxFor_atService]

end AtService

/-! ### The checks of CHANGE_BEGIN (R123) -/

section Checks
variable {c : Cell} {a : ArmId} {t : Nat}

/-- A target that can be picked. -/
structure Cell.Pickable (c : Cell) (a : ArmId) (t k : Nat) : Prop where
  number : 1 ≤ t ∧ t ≤ 40
  home : (c.probe t).home = a
  free : (c.probe t).state ≠ .free
  retiring : (c.probe t).state ≠ .retiring
  port : portWith (.holding t) (c.arm a).rack.ports = some k

/-- The arm may begin a change: it runs, with a clear latch and an IDLE sequencer. -/
structure Cell.MayChange (c : Cell) (a : ArmId) : Prop where
  run : (c.arm a).port.mode = .run
  stop : (c.arm a).stop = none
  idle : (c.arm a).seq.state = .idle

theorem Cell.changeRefusal_pick {k : Nat} (h : c.MayChange a) (hp : c.Pickable a t k) (hseat : (c.arm a).seq.seated = .noProbe)
    (hbox : (c.envelopeFor a (.probe t)).emptyOnAxis = false) : c.changeRefusal a t = none := by
  have ht0 : t ≠ 0 := by have := hp.number; omega
  have ht40 : ¬40 < t := by have := hp.number; omega
  have hfound : ¬(t ≠ 0 ∧ ((c.probe t).state = .free ∨ (c.probe t).home ≠ a)) := by simp [hp.free, hp.home]
  have hretiring : ¬(t ≠ 0 ∧ (c.probe t).state = .retiring) := by simp [hp.retiring]
  simp only [Cell.changeRefusal, Cell.running_eq, h.run, h.stop, h.idle, hseat, if_neg ht40, if_neg hfound, if_neg hretiring, hp.port,
    Cell.changeTooLarge, hbox, Seated.probe?]
  simp [ht0]

theorem Cell.changeRefusal_drop {p d : Nat} (h : c.MayChange a) (hseat : (c.arm a).seq.seated = .probe p) (hp : p ≠ 0)
    (hd : dropPort (c.arm a).rack.ports p = some d) (hbox : (c.envelopeFor a .noProbe).emptyOnAxis = false) :
    c.changeRefusal a 0 = none := by
  simp only [Cell.changeRefusal, Cell.running_eq, h.run, h.stop, h.idle, hseat, Cell.changeTooLarge, hbox, Seated.probe?, hd]
  simp [hp]

theorem Cell.changeRefusal_swap {p d k : Nat} (h : c.MayChange a) (hp : c.Pickable a t k) (hseat : (c.arm a).seq.seated = .probe p)
    (hne : p ≠ t) (hd : dropPort (c.arm a).rack.ports p = some d) (hnone : (c.envelopeFor a .noProbe).emptyOnAxis = false)
    (hbox : (c.envelopeFor a (.probe t)).emptyOnAxis = false) : c.changeRefusal a t = none := by
  have ht40 : ¬40 < t := by have := hp.number; omega
  have hfound : ¬(t ≠ 0 ∧ ((c.probe t).state = .free ∨ (c.probe t).home ≠ a)) := by simp [hp.free, hp.home]
  have hretiring : ¬(t ≠ 0 ∧ (c.probe t).state = .retiring) := by simp [hp.retiring]
  simp only [Cell.changeRefusal, Cell.running_eq, h.run, h.stop, h.idle, hseat, if_neg ht40, if_neg hfound, if_neg hretiring, hp.port,
    Cell.changeTooLarge, hbox, hnone, Seated.probe?, hd]
  simp [hne]

end Checks

/-! ### The first step (R124, R125, R146) -/

/-- An IDLE sequencer of a running arm enters STAGE_IN: the exit set is emptied. -/
theorem Cell.enterStep_stageIn {c : Cell} {a : ArmId} (p : Plan) (hrun : (c.arm a).port.mode = .run)
    (hidle : (c.arm a).seq.state = .idle) :
    c.enterStep a .stageIn p = (c.modArm a (fun x => { x with
        exitSet := []
        seq := { x.seq with
          state := .cycle .stageIn { p with entry := c.ms }, stepTimer := some (x.rack.params.stepLimits.get 1 0) } })).handOver a
      (.changeStep .stageIn (c.arm a).seq.latch) := by
  rw [Cell.enterStep_eq c a _ p hrun, Cell.handOver_eq, Cell.modArm_modArm]
  refine Cell.modArm_congr c a _ _ ?_
  have hexit : (c.arm a).exitSetAfter (.cycle .stageIn { p with entry := c.ms }) = [] := by
    simp only [Arm.exitSetAfter, SeqState.inCycle, hidle]
    rfl
  simp only [hexit, Step.latchOn, if_true]
  rfl

/-- An accepted CHANGE_BEGIN (R123, R124). -/
theorem State.changeBegin_accepted {s : State} {a : ArmId} {tag t : Nat} (hs : s.serves a (.changeBegin tag t))
    (hidle : (s.dev.cell.arm a).seq.state = .idle) (hok : (s.atService a).changeRefusal a t = none) {p : Plan}
    (hp : (s.atService a).changePlan a t = { p with entry := s.dev.cell.ms }) :
    exec (.changeBegin a tag t) s = .next (s.withCell
      ((((s.atService a).handOver a (.shortResponse .changeBegin tag .accepted (p.drop.getD 0) (p.pick.getD 0))).modArm a (fun x =>
        { x with
          exitSet := []
          seq := { x.seq with
            state := .cycle .stageIn { p with entry := s.dev.cell.ms }
            stepTimer := some ((s.dev.cell.arm a).rack.params.stepLimits.get 1 0) } })).handOver a
        (.changeStep .stageIn (s.dev.cell.arm a).seq.latch))) := by
  have hrun : (s.dev.cell.arm a).port.mode = .run := hs.2.1
  refine State.service_cell hs (serveChangeBegin a tag t) rfl ?_
  simp only [serveChangeBegin, hok, hp, Cell.respond]
  rw [Cell.enterStep_stageIn _ (by simp [State.mode_atService, hrun]) (by simp [hidle])]
  simp only [Cell.handOver_eq, Cell.modArm_modArm, Cell.arm_modArm_same, Cell.ms_modArm, State.ms_atService, State.seq_atService]
  exact Cell.modArm_congr _ _ _ _ (by simp only [State.rack_atService])

/-- Settles O45: the three accepted forms of CHANGE_BEGIN. -/
theorem changeBeginMakesThePlan : Obligations.ChangeBeginMakesThePlan := by
  unfold Obligations.ChangeBeginMakesThePlan
  intro a tag s m begun first picksFrom dropsTo hstop hidle
  have hports : ((s.atService a).arm a).rack.ports = m.rack.ports := congrArg Rack.ports (s.rack_atService a)
  have hmay : ∀ t, s.serves a (.changeBegin tag t) → (s.atService a).MayChange a := fun t hs =>
    ⟨(s.mode_atService a).trans hs.2.1, (s.stop_atService a).trans hstop, (congrArg Sequencer.state (s.seq_atService a)).trans hidle⟩
  have hfirst : ∀ st k, first st k → portWith st m.rack.ports = some k :=
    fun st k ⟨⟨port, hk, hst⟩, hlow⟩ => portWith_eq_some hk hst hlow
  have hpick : ∀ t k, picksFrom t k → (s.atService a).Pickable a t k := by
    rintro t k ⟨h1, h40, hhome, hk, hstate⟩
    refine ⟨⟨h1, h40⟩, ?_, ?_, ?_, by rw [hports]; exact hfirst _ _ hk⟩ <;> rw [State.probe_atService]
    · exact hhome
    · rcases hstate with h | h | h <;> simp [h]
    · rcases hstate with h | h | h <;> simp [h]
  have hdrop : ∀ p d, dropsTo p d → dropPort m.rack.ports p = some d := by
    rintro p d (hd | ⟨hnone, hd⟩)
    · rw [dropPort, hfirst _ _ hd]
      rfl
    · rw [dropPort, portWith_eq_none hnone, hfirst _ _ hd]
      rfl
  refine ⟨fun t k hs hseat hp hbox => ?_, fun p d hs hseat hp0 hd hbox => ?_, fun p d t k hs hseat hne hd hp hnone hbox => ?_⟩
  · have ht0 : t ≠ 0 := by have := hp.1; omega
    have hseat' := (congrArg Sequencer.seated (s.seq_atService a)).trans hseat
    refine (State.changeBegin_accepted hs hidle
      (Cell.changeRefusal_pick (hmay _ hs) (hpick t k hp) hseat' (by rw [State.envelopeFor_atService]; exact hbox))
      (p := ⟨none, some t, none, some k, s.dev.cell.ms⟩) ?_)
    simp only [Cell.changePlan, hseat', Seated.probe?, (hpick t k hp).port, if_neg ht0, State.ms_atService]
    rfl
  · have hseat' := (congrArg Sequencer.seated (s.seq_atService a)).trans hseat
    have hd' : dropPort ((s.atService a).arm a).rack.ports p = some d := by rw [hports]; exact hdrop p d hd
    refine (State.changeBegin_accepted hs hidle
      (Cell.changeRefusal_drop (hmay _ hs) hseat' hp0 hd' (by rw [State.envelopeFor_atService]; exact hbox))
      (p := ⟨some p, none, some d, none, s.dev.cell.ms⟩) ?_)
    simp only [Cell.changePlan, hseat', Seated.probe?, Option.bind_some, hd', State.ms_atService, if_true]
  · have ht0 : t ≠ 0 := by have := hp.1; omega
    have hseat' := (congrArg Sequencer.seated (s.seq_atService a)).trans hseat
    have hd' : dropPort ((s.atService a).arm a).rack.ports p = some d := by rw [hports]; exact hdrop p d hd
    refine (State.changeBegin_accepted hs hidle
      (Cell.changeRefusal_swap (hmay _ hs) (hpick t k hp) hseat' hne hd' (by rw [State.envelopeFor_atService]; exact hnone)
        (by rw [State.envelopeFor_atService]; exact hbox))
      (p := ⟨some p, some t, some d, some k, s.dev.cell.ms⟩) ?_)
    simp only [Cell.changePlan, hseat', Seated.probe?, Option.bind_some, hd', (hpick t k hp).port, if_neg ht0, State.ms_atService]

end Sys2Proof.Machine
end

section
/-! PROOFS. An abort of a change, written out, and what the latches and aborts after it leave alone (R133 to R135, R169, R171): the
lemmas for O46 and O47. -/

namespace Sys2Proof.Machine

/-! ### Plan ports and plan probes -/

/-- The ports with the state of one that a plan may name. -/
def portsMarked (ports : List Port) (k : Option Nat) (st : PortState) : List Port :=
  match k with
  | none => ports
  | some n => changeNth ports n (fun x => { x with state := st })

/-- The probe table with a probe that a plan may name at a location. -/
def probesPlaced (probes : Table Probe 40) (k : Option Nat) (l : Location) : Table Probe 40 :=
  match k with
  | none => probes
  | some n => probes.set n { probes.get n Probe.reset with location := l }

theorem Cell.placeNamed_eq (c : Cell) (k : Option Nat) (l : Location) :
    c.placeNamed k l = { c with probes := probesPlaced c.probes k l } := by cases k <;> rfl

theorem Cell.setPortState_marks (c : Cell) (a : ArmId) (k : Option Nat) (st : PortState) :
    c.setPortState a k st = c.modArm a (fun m => { m with rack := { m.rack with ports := portsMarked m.rack.ports k st } }) := by
  cases k with
  | none => exact (c.modArm_id a).symm
  | some n => rfl

theorem portsMarked_length (ports : List Port) (k : Option Nat) (st : PortState) : (portsMarked ports k st).length = ports.length := by
  cases k with
  | none => rfl
  | some n => exact changeNth_length _ _ _

theorem nth_portsMarked {ports : List Port} {k : Option Nat} {j : Nat} {y : Port} (st : PortState) (h : nth ports j = some y) :
    nth (portsMarked ports k st) j = some (if k = some j then { y with state := st } else y) := by
  cases k with
  | none => simpa [portsMarked] using h
  | some n =>
    by_cases hn : n = j
    · subst hn
      rw [if_pos rfl]
      exact nth_changeNth_same _ _ _ _ h
    · rw [if_neg (fun he => hn (Option.some.inj he))]
      exact (nth_changeNth_other _ _ _ _ (Ne.symm hn)).trans h

theorem get_probesPlaced (probes : Table Probe 40) (k : Option Nat) (l : Location) {n : Nat} (h1 : 1 ≤ n) (h40 : n ≤ 40) :
    (probesPlaced probes k l).get n Probe.reset =
      if k = some n then { probes.get n Probe.reset with location := l } else probes.get n Probe.reset := by
  cases k with
  | none => simp [probesPlaced]
  | some j =>
    by_cases hj : j = n
    · subst hj
      rw [if_pos rfl]
      exact Table.get_set_same _ _ _ _ h1 h40
    · rw [if_neg (fun he => hj (Option.some.inj he))]
      exact Table.get_set_other _ _ _ _ _ (Ne.symm hj)

/-! ### The cell with another probe table -/

section WithProbes
variable (c : Cell) (probes : Table Probe 40)

theorem Cell.withProbes_modArm (a : ArmId) (f : Arm → Arm) :
    { c.modArm a f with probes := probes } = ({ c with probes := probes } : Cell).modArm a f := by cases a <;> rfl

theorem Cell.arm_withProbes (a : ArmId) : ({ c with probes := probes } : Cell).arm a = c.arm a := by cases a <;> rfl

end WithProbes

/-! ### An abort, written out (R133 to R135) -/

/-- What an abort leaves before the latches that it may set: the records given, the timers and the progress ended, CHANGE_FAULT noted,
and CHANGE_END handed over unless the cause is LINK (R133). -/
def Cell.aborted (c : Cell) (a : ArmId) (cause : AbortCause) (step : Step) (st : SeqState) (seated : Seated) (exits : List Nat)
    (ports : List Port) (probes : Table Probe 40) : Cell :=
  let n := (({ c with probes := probes } : Cell).modArm a (fun x => { x with
    exitSet := exits
    rack := { x.rack with ports := ports }
    seq := { x.seq with
      state := st, seated := seated, stepTimer := none, engageTimer := none, engage := false
      dropOccupied := false, dropId := false, pickOccupied := false, pickHead := false } })).addNotice (.changeFault a cause step)
  if cause = .link ∨ (c.arm a).port.mode ≠ .run then n else n.handOver a (.changeEnd (.aborted cause step))

section Aborted
variable (c : Cell) (a : ArmId) (cause : AbortCause) (step : Step) (st : SeqState) (seated : Seated) (exits : List Nat)
  (ports : List Port) (probes : Table Probe 40)

/-- The abort's records, with the message by its cause and the arm's mode. -/
theorem Cell.aborted_eq :
    c.aborted a cause step st seated exits ports probes =
      (({ c with probes := probes } : Cell).addNotice (.changeFault a cause step)).modArm a (fun x => { x with
        exitSet := exits
        rack := { x.rack with ports := ports }
        seq := { x.seq with
          state := st, seated := seated, stepTimer := none, engageTimer := none, engage := false
          dropOccupied := false, dropId := false, pickOccupied := false, pickHead := false }
        port := if cause = .link ∨ (c.arm a).port.mode ≠ .run then x.port
          else x.port.handOver (.changeEnd (.aborted cause step)) }) := by
  simp only [Cell.aborted, Cell.addNotice_modArm]
  split
  · rfl
  · simp only [Cell.handOver_eq, Cell.modArm_modArm]

theorem Cell.seq_aborted :
    ((c.aborted a cause step st seated exits ports probes).arm a).seq = { (c.arm a).seq with
      state := st, seated := seated, stepTimer := none, engageTimer := none, engage := false
      dropOccupied := false, dropId := false, pickOccupied := false, pickHead := false } := by
  rw [Cell.aborted_eq]
  simp only [Cell.arm_modArm_same, Cell.arm_addNotice, Cell.arm_withProbes]

theorem Cell.notices_aborted :
    (c.aborted a cause step st seated exits ports probes).notices = (c.addNotice (.changeFault a cause step)).notices := by
  rw [Cell.aborted_eq, Cell.notices_modArm]
  rfl

theorem Cell.other_aborted : (c.aborted a cause step st seated exits ports probes).arm a.other = c.arm a.other := by
  rw [Cell.aborted_eq, Cell.arm_modArm_other, Cell.arm_addNotice, Cell.arm_withProbes]

end Aborted

/-- CHANGE_END goes to a running arm unless the cause is LINK (R133). -/
theorem changeEnd_message (n : Cell) (a : ArmId) (cause : AbortCause) (f : TxFrame) {mode : Mode} (h : (n.arm a).port.mode = mode) :
    (if cause = .link then n else n.message a f) = if cause = .link ∨ mode ≠ .run then n else n.handOver a f := by
  by_cases hlink : cause = .link
  · simp only [hlink, true_or, if_true]
  · simp only [hlink, false_or, if_false]
    by_cases hrun : mode = .run
    · rw [Cell.message_run _ _ _ (h.trans hrun), if_neg (Classical.not_not.2 hrun)]
    · rw [Cell.message_not_run _ _ _ (by rw [h]; exact hrun), if_pos hrun]

section Abort
variable {c : Cell} {a : ArmId} {cause : AbortCause} {step : Step} {p : Plan} (hs : (c.arm a).seq.state = .cycle step p)
include hs

/-- CHANGE_FAULT opens the boxes that the step opened, so the exit set stands (R146). -/
theorem Arm.exitSetAfter_fault : (c.arm a).exitSetAfter (.changeFault cause step p) = (c.arm a).exitSet := by
  have hfilter : ∀ q : Nat → Bool, (c.arm a).seq.state.opens.filter
      (fun b => !(SeqState.changeFault cause step p).opens.contains b && q b) = [] := by
    intro q
    rw [List.filter_eq_nil_iff, hs]
    intro b hb
    have hmem : (SeqState.changeFault cause step p).opens.contains b = true := List.contains_iff_mem.2 hb
    rw [hmem]
    simp
  simp only [Arm.exitSetAfter, SeqState.inCycle, Bool.false_eq_true, if_false]
  cases (c.arm a).lastSample with
  | none => rfl
  | some u => simp only [Bool.and_assoc, hfilter, List.append_nil]

theorem Cell.afterAbort_acted (hact : step.acted = true) :
    c.afterAbort a cause step p = c.aborted a cause step (.changeFault cause step p) .unknown (c.arm a).exitSet
      (portsMarked (portsMarked (c.arm a).rack.ports p.drop .unknown) p.pick .unknown)
      (probesPlaced (probesPlaced c.probes p.old .unresolved) p.target .unresolved) := by
  have hexit : ({ c.arm a with seq := (c.arm a).seq.quiet } : Arm).exitSetAfter (.changeFault cause step p) = (c.arm a).exitSet :=
    Arm.exitSetAfter_fault hs
  have hfault : ((c.modSeq a Sequencer.quiet).addNotice (.changeFault a cause step)).faultChange a cause step p =
      (({ c with probes := probesPlaced (probesPlaced c.probes p.old .unresolved) p.target .unresolved } : Cell).addNotice
        (.changeFault a cause step)).modArm a (fun x => { x with
          exitSet := (c.arm a).exitSet
          rack := { x.rack with
            ports := portsMarked (portsMarked (c.arm a).rack.ports p.drop .unknown) p.pick .unknown }
          seq := { x.seq with
            state := .changeFault cause step p, seated := .unknown, stepTimer := none, engageTimer := none, engage := false
            dropOccupied := false, dropId := false, pickOccupied := false, pickHead := false } }) := by
    simp only [Cell.faultChange, Cell.setSeqState, Cell.placeNamed_eq, Cell.setPortState_marks, Cell.modSeq_eq, Cell.addNotice_modArm,
      Cell.modArm_modArm, Cell.withProbes_modArm, Cell.probes_modArm, Cell.probes_addNotice]
    refine Cell.modArm_congr _ a _ _ ?_
    simp only [Cell.arm_withProbes, Cell.arm_addNotice]
    exact congrArg (fun e : List Nat => ({ c.arm a with
      exitSet := e
      rack := { (c.arm a).rack with ports := portsMarked (portsMarked (c.arm a).rack.ports p.drop .unknown) p.pick .unknown }
      seq := { (c.arm a).seq.quiet with state := .changeFault cause step p, seated := .unknown } } : Arm)) hexit
  simp only [Cell.afterAbort, hact, if_true, hfault]
  rw [changeEnd_message _ _ _ _ (mode := (c.arm a).port.mode) (by simp only [Cell.arm_modArm_same, Cell.arm_addNotice, Cell.arm_withProbes])]
  simp only [Cell.aborted, Cell.addNotice_modArm]

omit hs in
theorem Cell.afterAbort_unacted (hact : step.acted = false) :
    c.afterAbort a cause step p = c.aborted a cause step .idle (c.arm a).seq.seated ((c.arm a).exitSetAfter .idle)
      (c.arm a).rack.ports c.probes := by
  have hidle : ((c.modSeq a Sequencer.quiet).addNotice (.changeFault a cause step)).setSeqState a .idle =
      (c.addNotice (.changeFault a cause step)).modArm a (fun x => { x with
        exitSet := (c.arm a).exitSetAfter .idle
        rack := { x.rack with ports := (c.arm a).rack.ports }
        seq := { x.seq with
          state := .idle, seated := (c.arm a).seq.seated, stepTimer := none, engageTimer := none, engage := false
          dropOccupied := false, dropId := false, pickOccupied := false, pickHead := false } }) := by
    simp only [Cell.setSeqState, Cell.modSeq_eq, Cell.addNotice_modArm, Cell.modArm_modArm]
    refine Cell.modArm_congr _ a _ _ ?_
    simp only [Cell.arm_addNotice]
    rfl
  simp only [Cell.afterAbort, hact, Bool.false_eq_true, if_false, hidle]
  rw [changeEnd_message _ _ _ _ (mode := (c.arm a).port.mode) (by simp only [Cell.arm_modArm_same, Cell.arm_addNotice])]
  simp only [Cell.aborted, Cell.addNotice_modArm]

/-- An abort after the latch has acted: the records of a faulted change, and the bay test made again (R135, R172). -/
theorem Cell.abort_acted (hact : step.acted = true) :
    c.abort a cause = (c.aborted a cause step (.changeFault cause step p) .unknown (c.arm a).exitSet
      (portsMarked (portsMarked (c.arm a).rack.ports p.drop .unknown) p.pick .unknown)
      (probesPlaced (probesPlaced c.probes p.old .unresolved) p.target .unresolved)).retest a := by
  simp only [Cell.abort, abortChange, hs, hact, if_true, Cell.afterAbort_acted hs hact]
  rfl

/-- An abort elsewhere: IDLE, and the former plan ports are dispatched in order (R134). -/
theorem Cell.abort_unacted (hact : step.acted = false) :
    c.abort a cause = p.ports.foldl (returnPort setStop a) (c.aborted a cause step .idle (c.arm a).seq.seated
      ((c.arm a).exitSetAfter .idle) (c.arm a).rack.ports c.probes) := by
  simp only [Cell.abort, abortChange, hs, hact, Bool.false_eq_true, if_false, Cell.afterAbort_unacted hact]

end Abort

theorem Step.acted_iff (step : Step) :
    step.acted = true ↔ step = .dropRelease ∨ step = .dropDepart ∨ step = .pickEngage ∨ step = .pickDepart := by
  cases step <;> simp [Step.acted]

theorem Step.not_acted_iff (step : Step) :
    step.acted = false ↔ step = .stageIn ∨ step = .dropDock ∨ step = .pickDock ∨ step = .stageOut := by
  cases step <;> simp [Step.acted]

/-! ### What latches and aborts leave alone -/

/-- An arm without a change in CYCLE keeps its sequencer, and the notices of the set stay in it, their counts growing. -/
structure Cell.Rests (c c' : Cell) : Prop where
  seq : ∀ b, (c.arm b).seq.state.inCycle = false → (c'.arm b).seq = (c.arm b).seq
  notices : ∀ k e, c.notices.get k none = some e → ∃ e', c'.notices.get k none = some e' ∧ e'.notice = e.notice ∧ e.count ≤ e'.count

theorem Cell.Rests.refl (c : Cell) : c.Rests c := ⟨fun _ _ => rfl, fun _ e h => ⟨e, h, rfl, Nat.le_refl _⟩⟩

theorem Cell.Rests.trans {c d e : Cell} (h : c.Rests d) (g : d.Rests e) : c.Rests e where
  seq b hb := (g.seq b (by rw [h.seq b hb]; exact hb)).trans (h.seq b hb)
  notices k x hx := by
    obtain ⟨y, hy, hyn, hyc⟩ := h.notices k x hx
    obtain ⟨z, hz, hzn, hzc⟩ := g.notices k y hy
    exact ⟨z, hz, hzn.trans hyn, Nat.le_trans hyc hzc⟩

section Rests
variable (c : Cell) (a : ArmId)

theorem Cell.rests_of_eq {c d : Cell} (hseq : ∀ b, (d.arm b).seq = (c.arm b).seq) (hn : d.notices = c.notices) : c.Rests d :=
  ⟨fun b _ => hseq b, fun _ e h => ⟨e, by rw [hn]; exact h, rfl, Nat.le_refl _⟩⟩

theorem Cell.rests_modArm (f : Arm → Arm) (h : (f (c.arm a)).seq = (c.arm a).seq) : c.Rests (c.modArm a f) :=
  Cell.rests_of_eq (fun b => by rcases a.eq_or_other b with rfl | rfl <;> simp [h]) (by simp)

theorem Cell.rests_modRack (f : Rack → Rack) : c.Rests (c.modRack a f) := by
  rw [Cell.modRack_eq]
  exact c.rests_modArm a _ rfl

theorem Cell.rests_handOver (f : TxFrame) : c.Rests (c.handOver a f) := by
  rw [Cell.handOver_eq]
  exact c.rests_modArm a _ rfl

/-- A notice added keeps the entry that stands in its place (R197). -/
theorem Cell.rests_addNotice (n : Notice) : c.Rests (c.addNotice n) where
  seq b _ := by rw [Cell.arm_addNotice]
  notices k e h := by
    by_cases hk : k = n.place
    · subst hk
      refine ⟨_, c.addNotice_get n, ?_⟩
      rw [h]
      simp only [bumpEntry, true_and]
      split <;> omega
    · exact ⟨e, (Table.get_set_other _ _ _ _ _ hk).trans h, rfl, Nat.le_refl _⟩

theorem Cell.rests_modProbe (p : Nat) (f : Probe → Probe) : c.Rests (c.modProbe p f) :=
  Cell.rests_of_eq (fun b => by rw [Cell.arm_modProbe]) rfl

theorem Cell.rests_setPortState (k : Option Nat) (st : PortState) : c.Rests (c.setPortState a k st) := by
  rw [Cell.setPortState_marks]
  exact c.rests_modArm a _ rfl

theorem Cell.rests_probeOut (p : Nat) : c.Rests (c.probeOut p) := by
  simp only [Cell.probeOut]
  split
  · exact Cell.Rests.trans (d := c.dropExpectation (c.probe p).home p) (c.rests_modRack _ _) (Cell.rests_modProbe _ _ _)
  · exact c.rests_modProbe _ _

theorem Cell.rests_message (f : TxFrame) : c.Rests (c.message a f) := by
  simp only [Cell.message]
  split
  · exact c.rests_handOver a f
  · exact .refl c

theorem Cell.rests_manualOccupied (k : Nat) (level : Bool) : c.Rests (c.manualOccupied a k level) := by
  simp only [Cell.manualOccupied]
  split
  · exact .refl c
  · split
    · exact (c.rests_setPortState a _ _).trans (Cell.rests_addNotice _ _)
    · exact (c.rests_setPortState a _ _).trans (Cell.rests_modProbe _ _ _)
    · exact (c.rests_setPortState a _ _).trans (Cell.rests_addNotice _ _)
    · exact ((c.rests_setPortState a _ _).trans (Cell.rests_probeOut _ _)).trans (Cell.rests_addNotice _ _)
    · exact c.rests_setPortState a _ _
    · exact .refl c

theorem Cell.rests_latchStop (cause : StopCause) : c.Rests (c.latchStop a cause) := by
  simp only [Cell.latchStop]
  split
  · exact .refl c
  · exact ((c.rests_modArm a _ rfl).trans (Cell.rests_message _ a _)).trans (Cell.rests_addNotice _ _)

/-- An abort changes the sequencer of the arm whose change was in CYCLE, and adds a notice. -/
theorem Cell.rests_aborted {cause : AbortCause} {step : Step} {st : SeqState} {seated : Seated} {exits : List Nat} {ports : List Port}
    {probes : Table Probe 40} (hc : (c.arm a).seq.state.inCycle = true) :
    c.Rests (c.aborted a cause step st seated exits ports probes) where
  seq b hb := by
    rcases a.eq_or_other b with rfl | rfl
    · rw [hc] at hb
      cases hb
    · rw [Cell.other_aborted]
  notices k e h := by
    rw [Cell.notices_aborted]
    exact (c.rests_addNotice _).notices k e h

end Rests

section Latch
variable (latch : ArmId → StopCause → Cell → Cell) (hl : ∀ a cause c, Cell.Rests c (latch a cause c))
include hl

theorem rests_manualHead (c : Cell) (a : ArmId) (k : Nat) (level : Bool) : c.Rests (manualHead latch c a k level) := by
  simp only [manualHead]
  split
  · exact hl a _ c
  · exact .refl c

theorem rests_bayTest (c : Cell) (a : ArmId) (u : Point) : c.Rests (bayTest latch c a u) := by
  simp only [bayTest]
  split
  · exact .refl c
  · split
    · exact hl a _ c
    · exact (hl a _ c).trans (hl _ _ _)

theorem rests_bayRetest (c : Cell) (a : ArmId) : c.Rests (bayRetest latch c a) := by
  simp only [bayRetest]
  split
  · split
    · exact .refl c
    · exact rests_bayTest latch hl c a _
  · exact .refl c

theorem rests_returnPort (a : ArmId) (c : Cell) (k : Nat) : c.Rests (returnPort latch a c k) := by
  simp only [returnPort]
  split
  · exact .refl c
  · refine Cell.Rests.trans ?_ (rests_manualHead latch hl _ a k _)
    split
    · exact c.rests_manualOccupied a k _
    · exact .refl c

theorem rests_returnPorts (a : ArmId) (l : List Nat) (c : Cell) : c.Rests (l.foldl (returnPort latch a) c) := by
  induction l generalizing c with
  | nil => exact .refl c
  | cons k ks ih => exact (rests_returnPort latch hl a c k).trans (ih _)

theorem rests_abortChange (a : ArmId) (cause : AbortCause) (c : Cell) : c.Rests (abortChange latch a cause c) := by
  simp only [abortChange]
  split
  · exact .refl c
  · exact .refl c
  next step p hs =>
    have hc : (c.arm a).seq.state.inCycle = true := by rw [hs]; rfl
    cases hact : step.acted with
    | true =>
      simp only [if_true]
      rw [Cell.afterAbort_acted hs hact]
      exact (c.rests_aborted a hc).trans (rests_bayRetest latch hl _ a)
    | false =>
      simp only [Bool.false_eq_true, if_false]
      rw [Cell.afterAbort_unacted hact]
      exact (c.rests_aborted a hc).trans (rests_returnPorts latch hl a _ _)

end Latch

theorem rests_setStopFuel (n : Nat) (a : ArmId) (cause : StopCause) (c : Cell) : c.Rests (setStopFuel n a cause c) := by
  induction n generalizing a cause c with
  | zero => exact c.rests_latchStop a cause
  | succ n ih =>
    simp only [setStopFuel]
    split
    · exact .refl c
    · exact (c.rests_latchStop a cause).trans (rests_abortChange _ ih a .stop _)

theorem rests_setStop (a : ArmId) (cause : StopCause) (c : Cell) : c.Rests (setStop a cause c) := rests_setStopFuel 3 a cause c

theorem Cell.rests_retest (c : Cell) (a : ArmId) : c.Rests (c.retest a) := rests_bayRetest _ rests_setStop c a

/-- The sequencer that an abort leaves: what it set before the latches (R133 to R135). -/
theorem Cell.seq_abort {c : Cell} {a : ArmId} (cause : AbortCause) {step : Step} {p : Plan}
    (hs : (c.arm a).seq.state = .cycle step p) :
    ((c.abort a cause).arm a).seq = { (c.arm a).seq with
      state := if step.acted then .changeFault cause step p else .idle
      seated := if step.acted then .unknown else (c.arm a).seq.seated
      stepTimer := none, engageTimer := none, engage := false
      dropOccupied := false, dropId := false, pickOccupied := false, pickHead := false } := by
  cases hact : step.acted with
  | true =>
    rw [Cell.abort_acted hs hact, (Cell.rests_retest _ a).seq a (by rw [Cell.seq_aborted]; rfl), Cell.seq_aborted]
    rfl
  | false =>
    rw [Cell.abort_unacted hs hact, (rests_returnPorts _ rests_setStop a _ _).seq a (by rw [Cell.seq_aborted]; rfl), Cell.seq_aborted]
    rfl

/-- CHANGE_FAULT stands in the notice set after an abort (R133, R197). -/
theorem Cell.notices_abort {c : Cell} {a : ArmId} (cause : AbortCause) {step : Step} {p : Plan}
    (hs : (c.arm a).seq.state = .cycle step p) :
    ∃ e, (c.abort a cause).notices.get 12 none = some e ∧
      e.notice = (bumpEntry (.changeFault a cause step) (c.notices.get 12 none)).notice ∧
      (bumpEntry (.changeFault a cause step) (c.notices.get 12 none)).count ≤ e.count := by
  have hnoted : (c.addNotice (.changeFault a cause step)).notices.get 12 none =
      some (bumpEntry (.changeFault a cause step) (c.notices.get 12 none)) := c.addNotice_get _
  cases hact : step.acted with
  | true =>
    rw [Cell.abort_acted hs hact]
    exact (Cell.rests_retest _ a).notices 12 _ (by rw [Cell.notices_aborted]; exact hnoted)
  | false =>
    rw [Cell.abort_unacted hs hact]
    exact (rests_returnPorts _ rests_setStop a _ _).notices 12 _ (by rw [Cell.notices_aborted]; exact hnoted)

end Sys2Proof.Machine
end

section
/-! PROOFS. The steps of a change (R114, R125 to R132, R145, R146, R172): the lemmas for O46. -/

namespace Sys2Proof.Machine

/-! ### A step entered after another (R125, R132) -/

/-- `c'` is `c` but for the arm's port, the records of its rack's ports and the progress of its step. -/
structure Cell.Near (c c' : Cell) (a : ArmId) : Prop where
  state : (c'.arm a).seq.state = (c.arm a).seq.state
  seated : (c'.arm a).seq.seated = (c.arm a).seq.seated
  latch : (c'.arm a).seq.latch = (c.arm a).seq.latch
  rings : (c'.arm a).seq.rings = (c.arm a).seq.rings
  params : (c'.arm a).rack.params = (c.arm a).rack.params
  mask : (c'.arm a).rack.maskTimer = (c.arm a).rack.maskTimer
  exits : (c'.arm a).exitSet = (c.arm a).exitSet
  ms : c'.ms = c.ms
  notices : c'.notices = c.notices
  probes : c'.probes = c.probes

theorem Cell.near_modArm (c : Cell) (a : ArmId) (port : ArmPort) (ports : List Port) (dropOccupied dropId pickOccupied pickHead : Bool)
    (f : Arm → Arm) (hf : f (c.arm a) = { c.arm a with
      port := port, rack := { (c.arm a).rack with ports := ports }
      seq := { (c.arm a).seq with
        dropOccupied := dropOccupied, dropId := dropId, pickOccupied := pickOccupied, pickHead := pickHead } }) :
    c.Near (c.modArm a f) a := by
  constructor <;> simp [hf]

theorem Cell.Near.trans {c d e : Cell} {a : ArmId} (h : c.Near d a) (g : d.Near e a) : c.Near e a :=
  ⟨g.state.trans h.state, g.seated.trans h.seated, g.latch.trans h.latch, g.rings.trans h.rings, g.params.trans h.params,
    g.mask.trans h.mask, g.exits.trans h.exits, g.ms.trans h.ms, g.notices.trans h.notices, g.probes.trans h.probes⟩

/-- The cell with STEP_SLOW where the step's duration is slow against its ring (R132). -/
def Cell.warned (c : Cell) (a : ArmId) (step : Step) (p : Plan) : Cell :=
  if slowAgainst (c.arm a).rack.params ((c.arm a).seq.rings.get step.number []) (stepDuration c.ms p.entry) then
    c.addNotice (.stepSlow a step)
  else c

/-- The rings with the step's duration (R132). -/
def Cell.ringsAfter (c : Cell) (a : ArmId) (step : Step) (p : Plan) : Table (List Nat) 8 :=
  (c.arm a).seq.rings.set step.number
    ((stepDuration c.ms p.entry :: (c.arm a).seq.rings.get step.number []).take 8)

theorem Cell.Near.notices_warned {c c' : Cell} {a : ArmId} (h : c.Near c' a) (step : Step) (p : Plan) :
    (c'.warned a step p).notices = (c.warned a step p).notices := by
  simp only [Cell.warned, h.rings, h.params, h.ms]
  split
  · simp only [Cell.addNotice, h.notices]
  · exact h.notices

theorem Cell.Near.ringsAfter {c c' : Cell} {a : ArmId} (h : c.Near c' a) (step : Step) (p : Plan) :
    c'.ringsAfter a step p = c.ringsAfter a step p := by
  simp only [Cell.ringsAfter, h.rings, h.ms]

/-- `n` has completed a step of `c` and entered the next one. -/
def Cell.Entered (c : Cell) (a : ArmId) (p : Plan) (step next : Step) (latch : Bool) (port : ArmPort) (n : Cell) : Prop :=
  (n.arm a).seq.state = .cycle next { p with entry := c.ms } ∧
  (n.arm a).seq.stepTimer = some ((c.arm a).rack.params.stepLimits.get next.number 0) ∧ (n.arm a).seq.latch = latch ∧
  (n.arm a).seq.dropOccupied = false ∧ (n.arm a).seq.dropId = false ∧ (n.arm a).seq.pickOccupied = false ∧
  (n.arm a).seq.pickHead = false ∧ (n.arm a).seq.rings = c.ringsAfter a step p ∧ n.notices = (c.warned a step p).notices ∧
  (n.arm a).port = port.handOver (.changeStep next latch) ∧ (n.arm a).exitSet = (c.arm a).exitSet ∧
  (n.arm a).rack.maskTimer =
    (if (c.arm a).seq.latch = latch then (c.arm a).rack else (c.arm a).rack.startMask).maskTimer ∧
  ((c.arm a).seq.latch ≠ latch → (c.arm a).rack.params.maskTime ≠ 0 →
    ∀ y ∈ (n.arm a).rack.ports, y.occupiedFilter = none ∧ y.headFilter = none)

/-- The mask timer after a change of the latch-release output depends on the parameters and the running mask alone (R114). -/
theorem Rack.maskTimer_startMask {r r' : Rack} (hp : r'.params = r.params) (hm : r'.maskTimer = r.maskTimer) :
    r'.startMask.maskTimer = r.startMask.maskTimer := by
  simp only [Rack.startMask, hp]
  split
  · exact hm
  · rfl

theorem Rack.filters_startMask {r : Rack} (h : r.params.maskTime ≠ 0) :
    ∀ y ∈ r.startMask.ports, y.occupiedFilter = none ∧ y.headFilter = none := by
  intro y hy
  rw [Rack.startMask, if_neg h] at hy
  obtain ⟨x, -, rfl⟩ := List.mem_map.1 hy
  exact ⟨rfl, rfl⟩

section FinishStep
variable (c : Cell) (a : ArmId) (step : Step) (p : Plan)

theorem Cell.port_finishStep : ((c.finishStep a step p).arm a).port = (c.arm a).port := by rw [(c.finishStep_arm a step p).1]
theorem Cell.exitSet_finishStep : ((c.finishStep a step p).arm a).exitSet = (c.arm a).exitSet := by rw [(c.finishStep_arm a step p).1]
theorem Cell.rack_finishStep : ((c.finishStep a step p).arm a).rack = { (c.arm a).rack with
    ports := ((c.finishStep a step p).arm a).rack.ports } := by
  conv => lhs; rw [(c.finishStep_arm a step p).1]
theorem Cell.seq_finishStep : ((c.finishStep a step p).arm a).seq = { (c.arm a).seq with
    seated := ((c.finishStep a step p).arm a).seq.seated
    dropOccupied := false, dropId := false, pickOccupied := false, pickHead := false
    rings := c.ringsAfter a step p } := by
  conv => lhs; rw [(c.finishStep_arm a step p).1]
  rfl

end FinishStep

/-- A completed step with a next one, for a running arm (R125). -/
theorem Cell.Near.entered {c c' : Cell} {a : ArmId} (h : c.Near c' a) {step : Step} {p : Plan}
    (hrun : (c'.arm a).port.mode = .run) (hs : (c.arm a).seq.state = .cycle step p) (next : Step) {latch : Bool}
    (hl : next.latchOn (c.arm a).seq.latch = latch) :
    c.Entered a p step next latch (c'.arm a).port ((c'.finishStep a step p).enterStep a next p) := by
  have hport := c'.port_finishStep a step p
  have hrack := c'.rack_finishStep a step p
  have hseq := c'.seq_finishStep a step p
  have hparams : ((c'.finishStep a step p).arm a).rack.params = (c.arm a).rack.params := by rw [hrack]; exact h.params
  have hmask : ((c'.finishStep a step p).arm a).rack.maskTimer = (c.arm a).rack.maskTimer := by rw [hrack]; exact h.mask
  have hlatch : ((c'.finishStep a step p).arm a).seq.latch = (c.arm a).seq.latch := by rw [hseq]; exact h.latch
  have hstate : ((c'.finishStep a step p).arm a).seq.state = .cycle step p := by rw [hseq]; exact h.state.trans hs
  obtain ⟨hnotices, hms⟩ := c'.finishStep_notices a step p
  have hexit : ((c'.finishStep a step p).arm a).exitSetAfter (.cycle next { p with entry := c.ms }) =
      (c.arm a).exitSet := by
    simp only [Arm.exitSetAfter, SeqState.inCycle, hstate, if_true, Cell.exitSet_finishStep, h.exits]
  rw [Cell.enterStep_eq _ a next p (by rw [hport]; exact hrun)]
  simp only [Cell.Entered, Cell.arm_modArm_same, Cell.notices_modArm, hexit, hlatch, hl, hparams, hport, hms, h.ms]
  refine ⟨trivial, trivial, trivial, ?_, ?_, ?_, ?_, ?_, hnotices.trans (h.notices_warned step p), trivial, trivial, ?_, ?_⟩
  · rw [hseq]
  · rw [hseq]
  · rw [hseq]
  · rw [hseq]
  · rw [hseq]
    exact h.ringsAfter step p
  · split
    · exact hmask
    · exact Rack.maskTimer_startMask hparams hmask
  · intro hne h0
    rw [if_neg hne]
    exact Rack.filters_startMask (by rw [hparams]; exact h0)

/-! ### What entering a step leaves alone -/

section EnterStep
variable {c : Cell} {a : ArmId} {next : Step} (p : Plan) (hrun : (c.arm a).port.mode = .run)
include hrun

theorem Cell.probes_enterStep : (c.enterStep a next p).probes = c.probes := by
  rw [c.enterStep_eq a next p hrun, Cell.probes_modArm]

theorem Cell.seated_enterStep : ((c.enterStep a next p).arm a).seq.seated = (c.arm a).seq.seated := by
  rw [c.enterStep_eq a next p hrun, Cell.arm_modArm_same]

theorem Cell.rack_enterStep (hl : next.latchOn (c.arm a).seq.latch = (c.arm a).seq.latch) :
    ((c.enterStep a next p).arm a).rack = (c.arm a).rack := by
  rw [c.enterStep_eq a next p hrun, Cell.arm_modArm_same]
  exact if_pos hl.symm

/-- PICK_ENGAGE is entered with the engage flag set and its timer running (R129). -/
theorem Cell.engage_enterStep :
    ((c.enterStep a .pickEngage p).arm a).seq.engage = true ∧
      ((c.enterStep a .pickEngage p).arm a).seq.engageTimer = some (c.arm a).rack.params.engageTime := by
  rw [c.enterStep_eq a _ p hrun, Cell.arm_modArm_same]
  exact ⟨rfl, rfl⟩

end EnterStep

/-! ### The effect of DROP_DEPART and PICK_DEPART (R128, R130) -/

theorem Cell.judgeStep_eq (c : Cell) (a : ArmId) (step : Step) (p : Plan) :
    c.judgeStep a step p = (c.warned a step p).modSeq a (fun q => { q with rings := c.ringsAfter a step p }) := by
  simp only [Cell.judgeStep, Cell.warned]
  split <;> exact Cell.modArm_congr _ _ _ _ (by simp only [Cell.arm_addNotice]; rfl)

theorem Cell.arm_warned (c : Cell) (a : ArmId) (step : Step) (p : Plan) (b : ArmId) : (c.warned a step p).arm b = c.arm b := by
  simp only [Cell.warned]
  split
  · rw [Cell.arm_addNotice]
  · rfl

theorem Cell.probes_warned (c : Cell) (a : ArmId) (step : Step) (p : Plan) : (c.warned a step p).probes = c.probes := by
  simp only [Cell.warned]
  split <;> rfl

/-- A finished step that puts a probe somewhere: the port's state, the probe's location and the seated field. -/
structure Cell.Puts (c c' : Cell) (a : ArmId) (k : Nat) (st : PortState) (t : Nat) (l : Location) (seat : Seated) : Prop where
  seated : (c'.arm a).seq.seated = seat
  port : (c'.arm a).rack.ports = changeNth (c.arm a).rack.ports k (fun x => { x with state := st })
  probe : c'.probe t = { c.probe t with location := l }

theorem Cell.puts_effect {c : Cell} {a : ArmId} {step : Step} {p : Plan} {k : Nat} {st : PortState} {t : Nat} {l : Location}
    {seat : Seated} (h1 : 1 ≤ t) (h40 : t ≤ 40)
    (heffect : (c.judgeStep a step p).stepEffect a step p =
      (((c.judgeStep a step p).setPortState a (some k) st).placeProbe t l).modSeq a (fun q => { q with seated := seat })) :
    c.Puts (c.finishStep a step p) a k st t l seat := by
  have hprobe : ∀ j, (c.warned a step p).probe j = c.probe j := fun j => by
    simp only [Cell.probe, Cell.probes_warned]
  constructor
  · simp only [Cell.finishStep, heffect, Cell.modSeq_eq, Cell.arm_modArm_same]
  · rw [Cell.finishStep, heffect]
    simp only [Cell.modSeq_eq, Cell.arm_modArm_same, Cell.placeProbe, Cell.arm_modProbe, Cell.setPortState_eq, Cell.judgeStep_eq,
      Cell.arm_warned]
  · rw [Cell.finishStep, heffect]
    simp only [Cell.modSeq_eq, Cell.probe_modArm, Cell.placeProbe, Cell.probe_modProbe_same _ _ _ h1 h40,
      Cell.setPortState_eq, Cell.judgeStep_eq, hprobe]

theorem Cell.finishStep_dropDepart {c : Cell} {a : ArmId} {p : Plan} {old d : Nat} (hold : p.old = some old) (hd : p.drop = some d)
    (h1 : 1 ≤ old) (h40 : old ≤ 40) :
    c.Puts (c.finishStep a .dropDepart p) a d (.holding old) old (.rack d) .noProbe :=
  Cell.puts_effect h1 h40 (by simp only [Cell.stepEffect, hold, hd])

theorem Cell.finishStep_pickDepart {c : Cell} {a : ArmId} {p : Plan} {t k : Nat} (ht : p.target = some t) (hk : p.pick = some k)
    (h1 : 1 ≤ t) (h40 : t ≤ 40) :
    c.Puts (c.finishStep a .pickDepart p) a k (.vacant t) t .seated (.probe t) :=
  Cell.puts_effect h1 h40 (by simp only [Cell.stepEffect, ht, hk])

/-- The records stand when the next step is entered without a change of the latch-release output. -/
theorem Cell.Puts.enterStep {c c' : Cell} {a : ArmId} {k : Nat} {st : PortState} {t : Nat} {l : Location} {seat : Seated}
    (h : c.Puts c' a k st t l seat) (next : Step) (p : Plan) (hrun : (c'.arm a).port.mode = .run)
    (hl : next.latchOn (c'.arm a).seq.latch = (c'.arm a).seq.latch) : c.Puts (c'.enterStep a next p) a k st t l seat where
  seated := (Cell.seated_enterStep p hrun).trans h.seated
  port := by rw [Cell.rack_enterStep p hrun hl, h.port]
  probe := by
    rw [← h.probe]
    exact congrArg (fun probes => Table.get probes t Probe.reset) (Cell.probes_enterStep p hrun)

theorem Cell.Puts.port_state {c c' : Cell} {a : ArmId} {k : Nat} {st : PortState} {t : Nat} {l : Location} {seat : Seated}
    (h : c.Puts c' a k st t l seat) {y : Port} (hy : c.port? a k = some y) :
    (c'.port? a k).map (fun y => y.state) = some st := by
  simp only [Cell.port?, h.port]
  rw [nth_changeNth_same _ _ _ y hy]
  rfl

/-! ### The end of a change (R126) -/

/-- STAGE_OUT completes: the change has ended. -/
theorem Cell.completeStep_stageOut {c : Cell} {a : ArmId} {p : Plan} (hs : (c.arm a).seq.state = .cycle .stageOut p)
    (hrun : (c.arm a).port.mode = .run) :
    ((c.completeStep a).arm a).seq = { (c.arm a).seq with
      state := .idle, rings := c.ringsAfter a .stageOut p
      engage := false, dropOccupied := false, dropId := false, pickOccupied := false, pickHead := false
      stepTimer := none, engageTimer := none } ∧
    ((c.completeStep a).arm a).exitSet = (c.arm a).exitSetAfter .idle ∧
    (c.completeStep a).notices = ((c.warned a .stageOut p).addNotice (.changeDone a)).notices ∧
    ((c.completeStep a).arm a).port = (c.arm a).port.handOver (.changeEnd (.completed (c.arm a).seq.seated)) := by
  obtain ⟨-, hstands⟩ := c.finishStep_arm a .stageOut p
  obtain ⟨hrack, hseated⟩ := hstands (by decide) (by decide)
  have hseq := c.seq_finishStep a .stageOut p
  have hport := c.port_finishStep a .stageOut p
  rw [hseated] at hseq
  have harm : (c.finishStep a .stageOut p).arm a = { c.arm a with seq := ((c.finishStep a .stageOut p).arm a).seq } := by
    conv => lhs; rw [(c.finishStep_arm a .stageOut p).1, hrack]
    rw [hseq]
    rfl
  have hexit : ({ (c.finishStep a .stageOut p).arm a with
      seq := ((c.finishStep a .stageOut p).arm a).seq.quiet } : Arm).exitSetAfter .idle = (c.arm a).exitSetAfter .idle := by
    rw [harm, hseq]
    rfl
  have hcomplete : c.completeStep a = (c.finishStep a .stageOut p).endChange a := by
    simp only [Cell.completeStep, hs]
    rfl
  obtain ⟨hnotices, -⟩ := c.finishStep_notices a .stageOut p
  rw [hcomplete, Cell.endChange]
  simp only [Cell.modSeq_eq, Cell.setSeqState, Cell.modArm_modArm]
  rw [Cell.message_run _ _ _ (by rw [Cell.arm_addNotice, Cell.arm_modArm_same]; exact (congrArg ArmPort.mode hport).trans hrun)]
  simp only [Cell.handOver_eq, Cell.arm_modArm_same, Cell.arm_addNotice, Cell.notices_modArm]
  refine ⟨?_, hexit, ?_, ?_⟩
  · rw [hseq]
    rfl
  · simp only [Cell.addNotice, Cell.notices_modArm, hnotices]
    rfl
  · rw [hport]
    exact congrArg (fun x => ArmPort.handOver (c.arm a).port (.changeEnd (.completed x))) hseated

end Sys2Proof.Machine
end

section
/-! PROOFS. Reports, line events and the engage timer drive a change (R114, R125 to R132): O46. -/

namespace Sys2Proof.Machine

/-! ### The cell at the completion of a step -/

section Near
variable (c : Cell) (a : ArmId)

theorem Cell.near_takePin (k : Nat) (line : PortLine) : c.Near (c.takePin a k line) a := by
  rw [Cell.takePin, Cell.modRackPort, Cell.modRack_eq]
  exact c.near_modArm a _ _ _ _ _ _ _ rfl

/-- Progress noted in the sequencer. -/
theorem Cell.near_progress (dropOccupied dropId pickOccupied pickHead : Bool) (f : Sequencer → Sequencer)
    (hf : f (c.arm a).seq = { (c.arm a).seq with
      dropOccupied := dropOccupied, dropId := dropId, pickOccupied := pickOccupied, pickHead := pickHead }) :
    c.Near (c.modSeq a f) a := by
  rw [Cell.modSeq_eq]
  exact c.near_modArm a _ _ _ _ _ _ _ (by rw [hf])

theorem Cell.near_handOver (f : TxFrame) : c.Near (c.handOver a f) a := by
  rw [Cell.handOver_eq]
  exact c.near_modArm a _ _ _ _ _ _ _ rfl

end Near

theorem State.near_atService (s : State) (a : ArmId) : s.dev.cell.Near (s.atService a) a :=
  ⟨by simp, by simp, by simp, by simp, by simp, by simp, by simp, by simp, by simp, by simp⟩

/-- The cell after the answer to a request. -/
theorem State.near_answered (s : State) (a : ArmId) (f : TxFrame) : s.dev.cell.Near ((s.atService a).handOver a f) a :=
  (s.near_atService a).trans (Cell.near_handOver _ _ _)

theorem State.run_answered {s : State} {a : ArmId} (f : TxFrame) (h : (s.dev.cell.arm a).port.mode = .run) :
    (((s.atService a).handOver a f).arm a).port.mode = .run := by
  simp [State.mode_atService, h]

section Completes
variable {c c' : Cell} {a : ArmId} {step next : Step} {p : Plan} {latch : Bool} (h : c.Near c' a)
  (hrun : (c'.arm a).port.mode = .run) (hs : (c.arm a).seq.state = .cycle step p) (hnext : p.next step = some next)
include h hrun hs hnext

/-- A step other than DROP_DEPART and PICK_DEPART completes. -/
theorem Cell.Near.completes (hl : next.latchOn (c.arm a).seq.latch = latch) (hd : ¬(step = .dropDepart ∨ step = .pickDepart)) :
    c.Entered a p step next latch (c'.arm a).port (c'.completeStep a) := by
  rw [Cell.completeStep_enters c' a step next p (h.state.trans hs) hnext, if_neg hd]
  exact h.entered hrun hs next hl

/-- DROP_DEPART or PICK_DEPART completes: the records are set, and the bay test is made again (R172). -/
theorem Cell.Near.departs (hl : next.latchOn (c.arm a).seq.latch = (c.arm a).seq.latch)
    (hd : step = .dropDepart ∨ step = .pickDepart) {k : Nat} {st : PortState} {t : Nat} {l : Location} {seat : Seated}
    (hputs : c'.Puts (c'.finishStep a step p) a k st t l seat) {y : Port} (hy : c'.port? a k = some y) :
    ∃ n, c'.completeStep a = n.retest a ∧ c.Entered a p step next (c.arm a).seq.latch (c'.arm a).port n ∧
      (n.arm a).seq.seated = seat ∧ (n.port? a k).map (fun y => y.state) = some st ∧
      n.probe t = { c.probe t with location := l } := by
  have hlatch : ((c'.finishStep a step p).arm a).seq.latch = (c.arm a).seq.latch := by
    rw [Cell.seq_finishStep]
    exact h.latch
  have hputs' := hputs.enterStep next p (by rw [Cell.port_finishStep]; exact hrun) (by rw [hlatch]; exact hl)
  have hprobe : c'.probe t = c.probe t := congrArg (fun probes => Table.get probes t Probe.reset) h.probes
  refine ⟨(c'.finishStep a step p).enterStep a next p, ?_, h.entered hrun hs next hl, hputs'.seated, hputs'.port_state hy, ?_⟩
  · rw [Cell.completeStep_enters c' a step next p (h.state.trans hs) hnext, if_pos hd]
  · rw [hputs'.probe, hprobe]

end Completes

/-! ### A line event at a plan port (R115) -/

/-- The filter of a line of port `k` expires, and the level that it takes differs from the taken one. -/
structure State.TakesLine (s : State) (a : ArmId) (k : Nat) (line : PortLine) (level : Bool) : Prop where
  held : s.dev.link.held = false
  run : (s.dev.cell.arm a).port.mode = .run
  pin : s.dev.cell.pin a k line = level
  port : ∃ x, s.dev.cell.port? a k = some x ∧ x.state ≠ .disabled ∧ (x.filter line).isSome = true ∧ x.taken line = !level

section TakesLine
variable {s : State} {a : ArmId} {k : Nat} {line : PortLine} {level : Bool} (h : s.TakesLine a k line level)
include h

theorem State.TakesLine.expiry {step : Step} {p : Plan} (hs : (s.dev.cell.arm a).seq.state = .cycle step p)
    (hn : p.drop = some k ∨ p.pick = some k) :
    exec (.filterExpiry a k line) s =
      .next (s.withCell ((s.dev.cell.takePin a k line).planPortChange a step p k line level)) := by
  obtain ⟨x, hx, hd, hf, ht⟩ := h.port
  have hne : x.taken line ≠ s.dev.cell.pin a k line := by
    rw [ht, h.pin]
    cases level <;> decide
  rw [State.filterExpiry_live h.held, Cell.filterExpiry_takes hx hf, Cell.takeLine_cycle hx hne hd hs ((p.names_iff k).2 hn), h.pin]

theorem State.TakesLine.run_takePin : ((s.dev.cell.takePin a k line).arm a).port.mode = .run := by
  rw [Cell.takePin, Cell.modRackPort, Cell.modRack_eq, Cell.arm_modArm_same]
  exact h.run

theorem State.TakesLine.port_takePin : ∃ y, (s.dev.cell.takePin a k line).port? a k = some y := by
  obtain ⟨x, hx, -⟩ := h.port
  exact ⟨_, Cell.port?_takePin hx⟩

/-- The port with the level taken, where the sequencer notes progress alone. -/
theorem State.TakesLine.marked (g : Sequencer → Sequencer) :
    (s.dev.cell.takePin a k line).modSeq a g = s.dev.cell.modArm a (fun x =>
      { x with
        rack := { x.rack with ports := changeNth x.rack.ports k (fun y => y.take line level) }
        seq := g x.seq }) := by
  rw [Cell.takePin, Cell.modRackPort, Cell.modRack_eq, Cell.modSeq_eq, Cell.modArm_modArm, h.pin]

end TakesLine

theorem Cell.port_takePin (c : Cell) (a : ArmId) (k : Nat) (line : PortLine) :
    ((c.takePin a k line).arm a).port = (c.arm a).port := by
  rw [Cell.takePin, Cell.modRackPort, Cell.modRack_eq, Cell.arm_modArm_same]

theorem Cell.seq_takePin (c : Cell) (a : ArmId) (k : Nat) (line : PortLine) :
    ((c.takePin a k line).arm a).seq = (c.arm a).seq := c.seq_modRackPort a k _

/-! ### The events of a step -/

section Steps
variable {s : State} {a : ArmId} {tag : Nat} {p : Plan} {k : Nat}

theorem Plan.next_dropDepart (p : Plan) : p.next .dropDepart = some (if p.target.isSome then .pickDock else .stageOut) := rfl

theorem latchOn_pickOrOut (p : Plan) (now : Bool) : (if p.target.isSome then Step.pickDock else Step.stageOut).latchOn now = now := by
  split <;> rfl

theorem reportStaged_stageIn (h : s.serves a (.reportStaged tag)) (hs : (s.dev.cell.arm a).seq.state = .cycle .stageIn p) :
    ∃ n, exec (.reportStaged a tag) s = .next (s.withCell n) ∧
      s.dev.cell.Entered a p .stageIn (if p.old.isSome then .dropDock else if p.target.isSome then .pickDock else .stageOut)
        (s.dev.cell.arm a).seq.latch (((s.atService a).handOver a (.shortResponse .reportStaged tag .ok 0 0)).arm a).port n := by
  have hrun : (s.dev.cell.arm a).port.mode = .run := h.2.1
  refine ⟨_, State.service_cell h (serveReportStaged a tag) rfl ?_,
    (s.near_answered a (.shortResponse .reportStaged tag .ok 0 0)).completes (State.run_answered _ hrun) hs rfl ?_ (by decide)⟩
  · simp only [serveReportStaged, Cell.running_eq, State.mode_atService, hrun, State.seq_atService, hs]
    rfl
  · split
    · rfl
    · exact latchOn_pickOrOut p _

theorem reportStaged_stageOut (h : s.serves a (.reportStaged tag)) (hs : (s.dev.cell.arm a).seq.state = .cycle .stageOut p) :
    exec (.reportStaged a tag) s =
      .next (s.withCell (((s.atService a).handOver a (.shortResponse .reportStaged tag .ok 0 0)).completeStep a)) := by
  have hrun : (s.dev.cell.arm a).port.mode = .run := h.2.1
  refine State.service_cell h (serveReportStaged a tag) rfl ?_
  simp only [serveReportStaged, Cell.running_eq, State.mode_atService, hrun, State.seq_atService, hs]
  rfl

/-- A report that the step does not await is IGNORED (R131). -/
theorem reportStaged_ignored (h : s.serves a (.reportStaged tag))
    (hs : (s.dev.cell.arm a).seq.state.inCycle = false ∨
      ∃ step x, (s.dev.cell.arm a).seq.state = .cycle step x ∧ step ≠ .stageIn ∧ step ≠ .stageOut) :
    exec (.reportStaged a tag) s =
      .next (s.withCell ((s.atService a).handOver a (.shortResponse .reportStaged tag .ignored 0 0))) := by
  have hrun : (s.dev.cell.arm a).port.mode = .run := h.2.1
  refine State.service_cell h (serveReportStaged a tag) rfl ?_
  simp only [serveReportStaged, Cell.running_eq, State.mode_atService, hrun, State.seq_atService]
  rcases hs with hs | ⟨step, x, hs, hin, hout⟩
  · cases hst : (s.dev.cell.arm a).seq.state with
    | idle | changeFault => rfl
    | cycle step x =>
      rw [hst] at hs
      cases hs
  · rw [hs]
    cases step with
    | stageIn => exact absurd rfl hin
    | stageOut => exact absurd rfl hout
    | dropDock | dropRelease | dropDepart | pickDock | pickEngage | pickDepart => rfl

/-- REPORT_ID 0 in DROP_RELEASE notes the release, and completes the step where OCCUPIED was set before (R127). -/
theorem reportId_release (h : s.serves a (.reportId tag 0)) (hs : (s.dev.cell.arm a).seq.state = .cycle .dropRelease p) :
    exec (.reportId a tag 0) s = .next (s.withCell
      (if (s.dev.cell.arm a).seq.dropOccupied then
        (((s.atService a).handOver a (.shortResponse .reportId tag .ok 0 0)).modSeq a (fun q => { q with dropId := true })).completeStep a
      else ((s.atService a).handOver a (.shortResponse .reportId tag .ok 0 0)).modSeq a (fun q => { q with dropId := true }))) := by
  have hrun : (s.dev.cell.arm a).port.mode = .run := h.2.1
  refine State.service_cell h (serveReportId a tag 0) rfl ?_
  simp only [serveReportId, Cell.running_eq, State.mode_atService, hrun, State.seq_atService, hs]
  rfl

theorem reportId_ignored {code : Nat} (h : s.serves a (.reportId tag code))
    (hs : ((s.dev.cell.arm a).seq.state = .cycle .pickEngage p ∧ ((s.dev.cell.arm a).seq.engage = true ∨ code = 0)) ∨
      ((s.dev.cell.arm a).seq.state = .cycle .dropRelease p ∧ code ≠ 0) ∨ (s.dev.cell.arm a).seq.state.inCycle = false ∨
      ∃ step x, (s.dev.cell.arm a).seq.state = .cycle step x ∧ step ≠ .dropRelease ∧ step ≠ .pickEngage) :
    exec (.reportId a tag code) s =
      .next (s.withCell ((s.atService a).handOver a (.shortResponse .reportId tag .ignored 0 0))) := by
  have hrun : (s.dev.cell.arm a).port.mode = .run := h.2.1
  refine State.service_cell h (serveReportId a tag code) rfl ?_
  simp only [serveReportId, Cell.running_eq, State.mode_atService, hrun, State.seq_atService]
  rcases hs with ⟨hs, he⟩ | ⟨hs, hc⟩ | hs | ⟨step, x, hs, hrelease, hengage⟩
  · rw [hs]
    exact if_pos he
  · rw [hs]
    exact if_neg hc
  · cases hst : (s.dev.cell.arm a).seq.state with
    | idle | changeFault => rfl
    | cycle step x =>
      rw [hst] at hs
      cases hs
  · rw [hs]
    cases step with
    | dropRelease => exact absurd rfl hrelease
    | pickEngage => exact absurd rfl hengage
    | stageIn | stageOut | dropDock | dropDepart | pickDock | pickDepart => rfl

/-- REPORT_ID after the engage timer: the target's code completes the step, any other aborts the change (R129). -/
theorem reportId_engaged {code target : Nat} (h : s.serves a (.reportId tag code))
    (hs : (s.dev.cell.arm a).seq.state = .cycle .pickEngage p) (he : (s.dev.cell.arm a).seq.engage = false) (hc : code ≠ 0)
    (ht : p.target = some target) :
    exec (.reportId a tag code) s = .next (s.withCell
      (if code = (s.dev.cell.probe target).code then
        ((s.atService a).handOver a (.shortResponse .reportId tag .ok 0 0)).completeStep a
      else ((s.atService a).handOver a (.shortResponse .reportId tag .ok 0 0)).abort a .idMismatch)) := by
  have hrun : (s.dev.cell.arm a).port.mode = .run := h.2.1
  have hawaited : ¬((s.dev.cell.arm a).seq.engage = true ∨ code = 0) := by simp [he, hc]
  refine State.service_cell h (serveReportId a tag code) rfl ?_
  simp only [serveReportId, Cell.running_eq, State.mode_atService, hrun, State.seq_atService, hs, ht, Option.getD_some,
    State.probe_atService]
  exact if_neg hawaited

/-- The engage timer deasserts the latch, which starts a mask (R114, R129). -/
theorem engageTimerExpiry_deasserts (hheld : s.dev.link.held = false) (hrun : (s.dev.cell.arm a).port.mode = .run)
    (ht : (s.dev.cell.arm a).seq.engageTimer.isSome = true) (hl : (s.dev.cell.arm a).seq.latch = true) :
    exec (.engageTimerExpiry a) s =
      .next (s.withCell ((s.dev.cell.modArm a (fun x =>
        { x with rack := x.rack.startMask, seq := { x.seq with engageTimer := none, engage := false, latch := false } })).handOver a
          (.changeStep .pickEngage false))) := by
  refine (s.event_live _ hheld).trans (congrArg (fun c => Host.Outcome.next (s.withCell c)) ?_)
  simp only [Cell.engageTimerExpiry, ht, if_true, Cell.setLatch_eq, Cell.modSeq_eq, Cell.modArm_modArm]
  rw [Cell.message_run _ _ _ (by rw [Cell.arm_modArm_same]; exact hrun)]
  simp only [Cell.handOver_eq, Cell.modArm_modArm]
  exact Cell.modArm_congr _ a _ _ (by simp [hl])

end Steps

/-- Two frames handed over to a port that may serve a request. -/
theorem ArmPort.transmit_two (p : ArmPort) (f g : TxFrame) (h : p.transmit.length ≤ 12) :
    ((p.handOver f).handOver g).transmit = p.transmit ++ [f, g] := by
  have hf : (p.handOver f).transmit = p.transmit ++ [f] := by rw [ArmPort.handOver_room _ _ (by omega)]
  have hlen : (p.handOver f).transmit.length < 16 := by
    rw [hf, List.length_append, List.length_singleton]
    omega
  rw [ArmPort.handOver_room _ _ hlen]
  simp only [hf, List.append_assoc, List.singleton_append]

section PlanPort
variable {c : Cell} {a : ArmId} {p : Plan} {k : Nat}

theorem Cell.planPortChange_dropDock (h : p.drop = some k) : c.planPortChange a .dropDock p k .head true = c.completeStep a := if_pos h

theorem Cell.planPortChange_dropDepart (h : p.drop = some k) : c.planPortChange a .dropDepart p k .head false = c.completeStep a :=
  if_pos h

theorem Cell.planPortChange_pickDock (h : p.pick = some k) : c.planPortChange a .pickDock p k .head true = c.completeStep a := if_pos h

theorem Cell.planPortChange_dropRelease (h : p.drop = some k) (ho : (c.arm a).seq.dropOccupied = false) :
    c.planPortChange a .dropRelease p k .occupied true =
      if (c.arm a).seq.dropId then (c.modSeq a (fun q => { q with dropOccupied := true })).completeStep a
      else c.modSeq a (fun q => { q with dropOccupied := true }) := if_pos ⟨h, ho⟩

theorem Cell.planPortChange_pickOccupied (h : p.pick = some k) (ho : (c.arm a).seq.pickOccupied = false) :
    c.planPortChange a .pickDepart p k .occupied false =
      if (c.arm a).seq.pickHead then (c.modSeq a (fun q => { q with pickOccupied := true })).completeStep a
      else c.modSeq a (fun q => { q with pickOccupied := true }) := if_pos ⟨h, ho⟩

theorem Cell.planPortChange_pickHead (h : p.pick = some k) (hh : (c.arm a).seq.pickHead = false) :
    c.planPortChange a .pickDepart p k .head false =
      if (c.arm a).seq.pickOccupied then (c.modSeq a (fun q => { q with pickHead := true })).completeStep a
      else c.modSeq a (fun q => { q with pickHead := true }) := if_pos ⟨h, hh⟩

end PlanPort

/-- Settles O46: each event in each step. -/
theorem eventsDriveTheStepsOfAChange : Obligations.EventsDriveTheStepsOfAChange := by
  unfold Obligations.EventsDriveTheStepsOfAChange
  intro a tag p s c m q params duration ring newest slow warned rings masked entered changed marks answered pickOrOut
  have htakes : ∀ {k line level}, changed k line level → s.TakesLine a k line level :=
    fun ⟨hheld, hrun, hpin, hport⟩ => ⟨hheld, hrun, hpin, hport⟩
  have hentered : ∀ {step next latch port n}, c.Entered a p step next latch port n → entered step next latch port n := fun h => h
  have hmarked : ∀ {k line level}, changed k line level → ∀ (f : Port → Port) (g : Sequencer → Sequencer),
      (∀ y, y.take line level = f y) → s.withCell ((c.takePin a k line).modSeq a g) = marks k f g := by
    intro k line level h f g hf
    rw [(htakes h).marked, funext hf]
  have hnext : ∀ {n n' : Cell}, n = n' → (Host.Outcome.next (s.withCell n) : Host.Outcome State Fault Refusal) =
      .next (s.withCell n') := fun h => by rw [h]
  clear_value entered
  refine ⟨fun h hs => ?_, fun h hs => ?_, fun h hs => reportStaged_ignored h hs, fun d h hs hd => ?_, fun d h hs hd hocc => ?_,
    fun h hs => ?_, fun d old h hs hd hold h1 h40 => ?_, fun k h hs hk => ?_, fun hheld hrun _ ht hl =>
    (engageTimerExpiry_deasserts hheld hrun ht hl).trans (congrArg (fun n : Cell =>
      Host.Outcome.next (s.withCell (n.handOver a (.changeStep .pickEngage false)))) (Cell.modArm_congr c a _ _ rfl)), fun code h hs => reportId_ignored h hs, fun code target h hs he hc ht => ?_,
    fun k target hs hk ht h1 h40 => ?_⟩
  · obtain ⟨n, hn, he⟩ := reportStaged_stageIn h hs
    exact ⟨n, hn, hentered he⟩
  · have hrun : m.port.mode = .run := h.2.1
    have hroom : m.port.transmit.length ≤ 12 := h.2.2.1
    have hnear := s.near_answered a (.shortResponse .reportStaged tag .ok 0 0)
    obtain ⟨hseq, hexit, hnotices, hport⟩ := Cell.completeStep_stageOut (hnear.state.trans hs)
      (State.run_answered (.shortResponse .reportStaged tag .ok 0 0) hrun)
    refine ⟨_, reportStaged_stageOut h hs, ?_, ?_, ?_, ?_, ?_, ?_, ?_⟩
    · exact congrArg Sequencer.state hseq
    · exact congrArg Sequencer.stepTimer hseq
    · exact (congrArg Sequencer.seated hseq).trans hnear.seated
    · exact (congrArg Sequencer.rings hseq).trans (hnear.ringsAfter .stageOut p)
    · have hm : (((s.atService a).handOver a (.shortResponse .reportStaged tag .ok 0 0)).arm a).exitSetAfter .idle =
          m.exitSetAfter .idle := by
        rw [Cell.handOver_eq, Cell.arm_modArm_same, s.arm_atService a]
        rfl
      have hinto := m.exitsInto_exitSetAfter .idle rfl
      rw [← hm, ← hexit] at hinto
      exact hinto
    · have hwarned := hnear.notices_warned .stageOut p
      refine hnotices.trans ?_
      simp only [Cell.addNotice, hwarned]
      rfl
    · have hseated : (((s.atService a).handOver a (.shortResponse .reportStaged tag .ok 0 0)).arm a).seq.seated = q.seated := hnear.seated
      have htransmit : ((s.atService a).arm a).port.transmit = m.port.transmit := s.transmit_atService a
      refine (congrArg ArmPort.transmit hport).trans ?_
      rw [hseated, Cell.handOver_eq, Cell.arm_modArm_same, ArmPort.transmit_two _ _ _ (by rw [htransmit]; exact hroom), htransmit]
  · have htake := htakes h
    have he := (c.near_takePin a d .head).completes htake.run_takePin hs (next := .dropRelease) rfl rfl (by decide)
    rw [Cell.port_takePin] at he
    exact ⟨_, (htake.expiry hs (.inl hd)).trans (hnext (Cell.planPortChange_dropDock hd)), hentered he⟩
  · have htake := htakes h
    have hseq := c.seq_takePin a d .occupied
    have hplan := Cell.planPortChange_dropRelease (c := c.takePin a d .occupied) hd (by rw [hseq]; exact hocc)
    rw [hseq] at hplan
    refine ⟨fun hid => ?_, fun hid => ?_⟩
    · rw [if_neg (by rw [hid]; exact Bool.false_ne_true)] at hplan
      exact (htake.expiry hs (.inl hd)).trans ((hnext hplan).trans (congrArg Host.Outcome.next (hmarked h _ _ (fun _ => rfl))))
    · rw [if_pos hid] at hplan
      have hnear := (c.near_takePin a d .occupied).trans (Cell.near_progress _ a true _ _ _ (fun q => { q with dropOccupied := true }) rfl)
      have hport : (((c.takePin a d .occupied).modSeq a (fun q => { q with dropOccupied := true })).arm a).port = m.port := by
        rw [Cell.modSeq_eq, Cell.arm_modArm_same]
        exact c.port_takePin a d .occupied
      have he := hnear.completes ((congrArg ArmPort.mode hport).trans htake.run) hs (next := .dropDepart) rfl rfl (by decide)
      rw [hport] at he
      exact ⟨_, (htake.expiry hs (.inl hd)).trans (hnext hplan), hentered he⟩
  · refine ⟨fun hocc => ?_, fun hocc => ?_⟩
    · rw [reportId_release h hs, if_neg (by rw [show (s.dev.cell.arm a).seq.dropOccupied = false from hocc]; exact Bool.false_ne_true)]
      rfl
    · have hnear := (s.near_answered a (.shortResponse .reportId tag .ok 0 0)).trans
        (Cell.near_progress _ a _ true _ _ (fun q => { q with dropId := true }) rfl)
      have hport : ((((s.atService a).handOver a (.shortResponse .reportId tag .ok 0 0)).modSeq a
          (fun q => { q with dropId := true })).arm a).port = ((answered .reportId .ok).arm a).port := by
        rw [Cell.modSeq_eq, Cell.arm_modArm_same]
      have hrun := State.run_answered (.shortResponse .reportId tag .ok 0 0) h.2.1
      refine ⟨_, (reportId_release h hs).trans (congrArg (fun n => Host.Outcome.next (s.withCell n)) (if_pos hocc)), hentered ?_⟩
      rw [← hport]
      exact hnear.completes ((congrArg ArmPort.mode hport).trans hrun) hs rfl rfl (by decide)
  · have htake := htakes h
    obtain ⟨y, hy⟩ := htake.port_takePin
    obtain ⟨n, hn, he, hrecords⟩ := (c.near_takePin a d .head).departs htake.run_takePin hs p.next_dropDepart (latchOn_pickOrOut p _)
      (.inl rfl) (Cell.finishStep_dropDepart hold hd h1 h40) hy
    rw [Cell.port_takePin] at he
    exact ⟨n, (htake.expiry hs (.inl hd)).trans (hnext ((Cell.planPortChange_dropDepart hd).trans hn)), hentered he, hrecords⟩
  · have htake := htakes h
    have hnear := c.near_takePin a k .head
    have he := hnear.completes htake.run_takePin hs (next := .pickEngage) rfl rfl (by decide)
    rw [Cell.port_takePin] at he
    refine ⟨_, (htake.expiry hs (.inr hk)).trans (hnext (Cell.planPortChange_pickDock hk)), hentered he, ?_⟩
    · rw [Cell.completeStep_enters _ a .pickDock .pickEngage p (hnear.state.trans hs) rfl, if_neg (by decide)]
      have hrun := (congrArg ArmPort.mode (Cell.port_finishStep (c.takePin a k .head) a .pickDock p)).trans htake.run_takePin
      obtain ⟨he, ht⟩ := Cell.engage_enterStep p hrun
      refine ⟨he, ht.trans ?_⟩
      rw [Cell.rack_finishStep]
      exact congrArg (fun x => some x.engageTime) hnear.params
  · have hnear := s.near_answered a (.shortResponse .reportId tag .ok 0 0)
    refine ⟨fun hcode => ⟨_, (reportId_engaged h hs he hc ht).trans
      (congrArg (fun n => Host.Outcome.next (s.withCell n)) (if_pos hcode)), hentered ?_⟩, fun hcode => ⟨?_, ?_⟩⟩
    · exact hnear.completes (State.run_answered _ h.2.1) hs rfl rfl (by decide)
    · rw [reportId_engaged h hs he hc ht]
      exact congrArg (fun n => Host.Outcome.next (s.withCell n)) (if_neg hcode)
    · exact congrArg Sequencer.state (Cell.seq_abort .idMismatch (hnear.state.trans hs))
  · intro seats
    have hseats : ∀ line (g : Sequencer → Sequencer) (c' : Cell), c' = (c.takePin a k line).modSeq a g →
        s.TakesLine a k line false → c.Near c' a →
        (c.takePin a k line).planPortChange a .pickDepart p k line false = c'.completeStep a → seats line := by
      rintro line g c' rfl htake hnear hplan
      have hport : (((c.takePin a k line).modSeq a g).arm a).port = m.port := by
        rw [Cell.modSeq_eq, Cell.arm_modArm_same]
        exact c.port_takePin a k line
      obtain ⟨y, hy⟩ := htake.port_takePin
      have hy' : ((c.takePin a k line).modSeq a g).port? a k = some y := by
        rw [← hy]
        simp only [Cell.port?, Cell.modSeq_eq, Cell.arm_modArm_same]
        rfl
      obtain ⟨n, hn, he, hrecords⟩ := hnear.departs ((congrArg ArmPort.mode hport).trans htake.run) hs rfl rfl
        (.inr rfl) (Cell.finishStep_pickDepart ht hk h1 h40) hy'
      rw [hport] at he
      exact ⟨n, (htake.expiry hs (.inr hk)).trans (hnext (hplan.trans hn)), hentered he, hrecords⟩
    have hocc : q.pickOccupied = false → _ := fun ho =>
      Cell.planPortChange_pickOccupied (c := c.takePin a k .occupied) hk ((congrArg Sequencer.pickOccupied (c.seq_takePin a k _)).trans ho)
    have hhead : q.pickHead = false → _ := fun hh =>
      Cell.planPortChange_pickHead (c := c.takePin a k .head) hk ((congrArg Sequencer.pickHead (c.seq_takePin a k _)).trans hh)
    rw [Cell.seq_takePin] at hocc hhead
    refine ⟨fun h ho hh => ?_, fun h ho hh => ?_, fun h hh ho => ?_, fun h hh ho => ?_⟩
    · exact ((htakes h).expiry hs (.inr hk)).trans ((hnext ((hocc ho).trans (if_neg (by rw [hh]; exact Bool.false_ne_true)))).trans
        (congrArg Host.Outcome.next (hmarked h _ _ (fun _ => rfl))))
    · exact hseats .occupied (fun q => { q with pickOccupied := true }) _ rfl (htakes h)
        ((c.near_takePin a k .occupied).trans (Cell.near_progress _ a _ _ true _ _ rfl)) ((hocc ho).trans (if_pos hh))
    · exact ((htakes h).expiry hs (.inr hk)).trans ((hnext ((hhead hh).trans (if_neg (by rw [ho]; exact Bool.false_ne_true)))).trans
        (congrArg Host.Outcome.next (hmarked h _ _ (fun _ => rfl))))
    · exact hseats .head (fun q => { q with pickHead := true }) _ rfl (htakes h)
        ((c.near_takePin a k .head).trans (Cell.near_progress _ a _ _ _ true _ rfl)) ((hhead hh).trans (if_pos ho))

end Sys2Proof.Machine
end

section
/-! PROOFS. The ways in which a change is aborted (R131, R133 to R135, R187): O47. -/

namespace Sys2Proof.Machine

/-! ### The plan ports in ascending number (R134) -/

/-- The members decide an ascending list. -/
theorem ascending_ext {l k : List Nat} (hl : l.Pairwise (· < ·)) (hk : k.Pairwise (· < ·)) (h : ∀ n, n ∈ l ↔ n ∈ k) : l = k := by
  have hperm : l.Perm k := (List.perm_ext_iff_of_nodup (hl.imp Nat.ne_of_lt) (hk.imp Nat.ne_of_lt)).2 h
  exact hperm.eq_of_pairwise (fun _ _ _ _ hlt hgt => absurd hlt (Nat.lt_asymm hgt)) hl hk

theorem Plan.ports_sorted (p : Plan) : p.ports.Pairwise (· < ·) := by
  simp only [Plan.ports]
  split
  · exact List.Pairwise.nil
  · exact List.pairwise_singleton _ _
  · exact List.pairwise_singleton _ _
  · split
    next h => simpa using h
    next => split
            next h => simpa using h
            next => exact List.pairwise_singleton _ _

theorem Plan.mem_ports (p : Plan) (k : Nat) : k ∈ p.ports ↔ p.drop = some k ∨ p.pick = some k := by
  simp only [Plan.ports]
  split
  next hd hk => simp [hd, hk]
  next hd hk => simp [hd, hk, eq_comm]
  next hd hk => simp [hd, hk, eq_comm]
  next d j hd hk =>
    simp only [hd, hk, Option.some.injEq]
    split
    next => simp [eq_comm]
    next => split
            next => simp [eq_comm, or_comm]
            next => have : d = j := by omega
                    simp [this, eq_comm]

/-! ### A former plan port returns to manual events (R134) -/

/-- The arm's sequencer has left CYCLE, so a set HEAD level sets the latch alone. -/
theorem returnPort_still {c : Cell} {a : ArmId} (k : Nat) (h : (c.arm a).seq.state.inCycle = false) {y : Port}
    (hy : c.port? a k = some y) :
    returnPort setStop a c k =
      if y.head then
        (if y.state ≠ .disabled ∧ y.state.isOccupied ≠ y.occupied then c.manualOccupied a k y.occupied else c).latchStop a (.rack k)
      else if y.state ≠ .disabled ∧ y.state.isOccupied ≠ y.occupied then c.manualOccupied a k y.occupied else c := by
  have hrest : c.Rests (if y.state ≠ .disabled ∧ y.state.isOccupied ≠ y.occupied then c.manualOccupied a k y.occupied else c) := by
    split
    · exact c.rests_manualOccupied a k _
    · exact .refl c
  simp only [returnPort, hy, manualHead]
  rw [setStop_still _ _ _ (by rw [hrest.seq a h]; exact h)]

theorem returnPort_none {c : Cell} {a : ArmId} {k : Nat} (hy : c.port? a k = none) : returnPort setStop a c k = c := by
  simp only [returnPort, hy]

/-- Two ways to return ports that agree wherever the arm is out of CYCLE give the same cell. -/
theorem foldl_returnPort_congr {a : ArmId} {f : Cell → Nat → Cell}
    (hf : ∀ n k, (n.arm a).seq.state.inCycle = false → f n k = returnPort setStop a n k) (l : List Nat) {c : Cell}
    (h : (c.arm a).seq.state.inCycle = false) : l.foldl (returnPort setStop a) c = l.foldl f c := by
  induction l generalizing c with
  | nil => rfl
  | cons k ks ih =>
    rw [List.foldl_cons, List.foldl_cons, hf c k h]
    exact ih (by rw [(rests_returnPort _ rests_setStop a c k).seq a h]; exact h)

/-! ### What every abort leaves (R133 to R135) -/

/-- `n` has aborted the change that arm `a` had in CYCLE. -/
def Cell.Ended (c : Cell) (a : ArmId) (step : Step) (p : Plan) (cause : AbortCause) (n : Cell) : Prop :=
  (n.arm a).seq.stepTimer = none ∧ (n.arm a).seq.engageTimer = none ∧ (n.arm a).seq.engage = false ∧
  (n.arm a).seq.latch = (c.arm a).seq.latch ∧
  (∃ e, n.notices.get 12 none = some e ∧ e.notice = (bumpEntry (.changeFault a cause step) (c.notices.get 12 none)).notice ∧
    (bumpEntry (.changeFault a cause step) (c.notices.get 12 none)).count ≤ e.count) ∧
  (if step = .dropRelease ∨ step = .dropDepart ∨ step = .pickEngage ∨ step = .pickDepart then
    (n.arm a).seq.state = .changeFault cause step p ∧ (n.arm a).seq.seated = .unknown
  else (n.arm a).seq.state = .idle ∧ (n.arm a).seq.seated = (c.arm a).seq.seated)

section Ended
variable {c : Cell} {a : ArmId} {step : Step} {p : Plan} {cause : AbortCause}

/-- An abort of a cell whose sequencer is `c`'s but for the step timer, and which holds `c`'s CHANGE_FAULT entry. -/
theorem Cell.ended_abort {x : Cell} (hs : (c.arm a).seq.state = .cycle step p)
    (hseq : (x.arm a).seq = { (c.arm a).seq with stepTimer := (x.arm a).seq.stepTimer })
    (hn : x.notices.get 12 none = c.notices.get 12 none) : c.Ended a step p cause (x.abort a cause) := by
  have hx : (x.arm a).seq.state = .cycle step p := by rw [hseq]; exact hs
  have h := Cell.seq_abort cause hx
  have hnotices := Cell.notices_abort cause hx
  rw [hn] at hnotices
  have hlatch : (x.arm a).seq.latch = (c.arm a).seq.latch := by rw [hseq]
  have hseated : (x.arm a).seq.seated = (c.arm a).seq.seated := by rw [hseq]
  simp only [Cell.Ended, h, hlatch, hseated, true_and, ← Step.acted_iff]
  refine ⟨hnotices, ?_⟩
  split
  · exact ⟨rfl, rfl⟩
  · exact ⟨rfl, rfl⟩

/-- What follows an abort without a change of the sequencer. -/
theorem Cell.Ended.after {x n : Cell} (h : c.Ended a step p cause x) (hseq : (n.arm a).seq = (x.arm a).seq)
    (hn : ∀ k e, x.notices.get k none = some e → ∃ e', n.notices.get k none = some e' ∧ e'.notice = e.notice ∧ e.count ≤ e'.count) :
    c.Ended a step p cause n := by
  obtain ⟨htimer, hengage, hflag, hlatch, ⟨e, he, hen, hec⟩, hstate⟩ := h
  obtain ⟨e', he', hen', hec'⟩ := hn 12 e he
  rw [← hseq] at htimer hengage hflag hlatch hstate
  exact ⟨htimer, hengage, hflag, hlatch, ⟨e', he', hen'.trans hen, Nat.le_trans hec hec'⟩, hstate⟩

end Ended

theorem Cell.notices_takePin (c : Cell) (a : ArmId) (k : Nat) (line : PortLine) : (c.takePin a k line).notices = c.notices := by
  rw [Cell.takePin, Cell.modRackPort, Cell.modRack_eq, Cell.notices_modArm]

/-- Setting a latch leaves the CHANGE_FAULT entry and the sequencers. -/
theorem Cell.latchStop_leaves (c : Cell) (a b : ArmId) (cause : StopCause) :
    ((c.latchStop a cause).arm b).seq = (c.arm b).seq ∧ (c.latchStop a cause).notices.get 12 none = c.notices.get 12 none := by
  simp only [Cell.latchStop, Cell.message]
  have hset : ∀ x : Cell, x.notices = c.notices → (x.addNotice (.intrusion a cause)).notices.get 12 none = c.notices.get 12 none :=
    fun x hx => by
      rw [← hx]
      exact Table.get_set_other _ 12 14 _ _ (by decide)
  split
  · exact ⟨rfl, rfl⟩
  · split
    · refine ⟨?_, hset _ (by simp)⟩
      rcases a.eq_or_other b with rfl | rfl <;> simp
    · refine ⟨?_, hset _ (by simp)⟩
      rcases a.eq_or_other b with rfl | rfl <;> simp

theorem Cell.stop_latchStop {c : Cell} {a : ArmId} {cause : StopCause} (h : (c.arm a).stop = none) :
    ((c.latchStop a cause).arm a).stop = some cause := by
  simp only [Cell.latchStop, h, Option.isSome_none, Bool.false_eq_true, if_false, Cell.message]
  split <;> simp

/-! ### A change of a line that no step awaits (R131) -/

/-- The step awaits a change of a line of port `k`. -/
def Plan.Awaits (p : Plan) (q : Sequencer) (k : Nat) : Step → PortLine → Bool → Prop
  | .dropDock, .head, true => p.drop = some k
  | .dropRelease, .occupied, true => p.drop = some k ∧ q.dropOccupied = false
  | .dropDepart, .head, false => p.drop = some k
  | .pickDock, .head, true => p.pick = some k
  | .pickDepart, .occupied, false => p.pick = some k ∧ q.pickOccupied = false
  | .pickDepart, .head, false => p.pick = some k ∧ q.pickHead = false
  | _, _, _ => False

theorem Cell.planPortChange_unawaited {c : Cell} {a : ArmId} {step : Step} {p : Plan} {k : Nat} {line : PortLine} {level : Bool}
    (h : ¬p.Awaits (c.arm a).seq k step line level) : c.planPortChange a step p k line level = c.abort a .sensor := by
  unfold Cell.planPortChange
  split
  · exact if_neg h
  · exact if_neg h
  · exact if_neg h
  · exact if_neg h
  · exact if_neg h
  · exact if_neg h
  · rfl

/-! ### The ways to an abort -/

section Ways
variable {s : State} {a : ArmId} {step : Step} {p : Plan}

/-- The arm leaves RUN: the mode first, then the abort with cause LINK (R187). -/
theorem Cell.ended_leaveRun {c : Cell} (mode : Mode) (phase : Option Phase) (hs : (c.arm a).seq.state = .cycle step p) :
    c.Ended a step p .link (c.leaveRun a mode phase) := by
  have hended : c.Ended a step p .link
      ((c.modArm a (fun m => { m with wait := none, port := { m.port with mode := mode, phase := phase } })).abort a .link) :=
    Cell.ended_abort hs (by rw [Cell.arm_modArm_same]) (by rw [Cell.notices_modArm])
  rw [Cell.leaveRun]
  exact hended.after (by rw [Cell.arm_modArm_same]) (by rw [Cell.notices_modArm]; exact fun k e h => ⟨e, h, rfl, Nat.le_refl _⟩)

theorem silenceExpiry_leaves (hh : s.dev.link.held = false) (hrun : (s.dev.cell.arm a).port.mode = .run)
    (ht : (s.dev.cell.arm a).port.silenceTimer.isSome = true) :
    exec (.silenceTimerExpiry a) s = .next (s.withCell ((s.dev.cell.leaveRun a .off none).addNotice (.armLink a .silence))) := by
  refine (s.event_live _ hh).trans (congrArg (fun c => Host.Outcome.next (s.withCell c)) ?_)
  simp only [Cell.silenceExpiry, Cell.running_eq, hrun, ht, beq_self_eq_true, Bool.and_self, if_true]

theorem armDisable_leaves {arm : Nat} (ht : s.takes 3) (ha : armOfCode arm = some a) (hrun : (s.dev.cell.arm a).port.mode = .run) :
    exec (.armDisable arm) s = .next (s.answered 1026 3 0 [] { s.dev with cell := s.dev.cell.leaveRun a .off none }) := by
  refine s.command_cell 1026 3 0 _ ht _ .ok _ (fun c => c.leaveRun a .off none) ?_ rfl rfl
  simp only [serveArmDisable, ha, Device.cell_clocked, Cell.mode_eq, hrun]

/-- The expiry of a filter at a plan port that the step does not await. -/
theorem filterExpiry_sensor (hs : (s.dev.cell.arm a).seq.state = .cycle step p) (hh : s.dev.link.held = false) {k : Nat}
    {line : PortLine} {port : Port} (hp : s.dev.cell.port? a k = some port) (hd : port.state ≠ .disabled)
    (hf : (port.filter line).isSome = true) (ht : port.taken line ≠ s.dev.cell.pin a k line) (hn : p.drop = some k ∨ p.pick = some k)
    (hw : ¬p.Awaits (s.dev.cell.arm a).seq k step line (s.dev.cell.pin a k line)) :
    exec (.filterExpiry a k line) s = .next (s.withCell ((s.dev.cell.takePin a k line).abort a .sensor)) := by
  rw [State.filterExpiry_live hh, Cell.filterExpiry_takes hp hf, Cell.takeLine_cycle hp ht hd hs ((p.names_iff k).2 hn),
    Cell.planPortChange_unawaited (by rw [Cell.seq_takePin]; exact hw)]

/-- HEAD set at a port outside the plan: the stop latch, and the abort with cause STOP (R117, R169). -/
theorem filterExpiry_stop (hs : (s.dev.cell.arm a).seq.state = .cycle step p) (hh : s.dev.link.held = false) {k : Nat} {port : Port}
    (hp : s.dev.cell.port? a k = some port) (hd : port.state ≠ .disabled) (hf : (port.filter .head).isSome = true)
    (ht : port.taken .head ≠ s.dev.cell.pin a k .head) (hn : ¬(p.drop = some k ∨ p.pick = some k))
    (hset : s.dev.cell.pin a k .head = true) (hclear : (s.dev.cell.arm a).stop = none) :
    exec (.filterExpiry a k .head) s =
      .next (s.withCell (((s.dev.cell.takePin a k .head).latchStop a (.rack k)).abort a .stop)) := by
  have hstop : ((s.dev.cell.takePin a k .head).arm a).stop = none := by
    rw [Cell.takePin, Cell.modRackPort, Cell.modRack_eq, Cell.arm_modArm_same]
    exact hclear
  rw [State.filterExpiry_live hh, Cell.filterExpiry_takes hp hf,
    Cell.takeLine_unplanned hp ht hd (congrArg SeqState.plan? hs) (Plan.names_eq_false hn), hset]
  simp only [Cell.manualChange, manualHead, if_true, setStop_clear_or_set, hstop]

end Ways

/-- Settles O47: what an abort sets, and each way to it. -/
theorem abortsEndTheChange : Obligations.AbortsEndTheChange := by
  unfold Obligations.AbortsEndTheChange
  refine ⟨fun a cause c => c.abort_still a cause, fun a cause step p c hs => ?_, fun a tag arm step p s ha => ?_⟩
  · intro m named ends returned
    refine ⟨fun hact => ⟨_, _, ⟨?_, fun k y hy => ⟨fun hn => ?_, fun hn => ?_⟩⟩, fun k h1 h40 => ⟨fun hn => ?_, fun ho ht => ?_⟩,
      Cell.abort_acted hs ((step.acted_iff).2 hact)⟩, fun hact => ⟨_, m.exitsInto_exitSetAfter .idle rfl, fun l hl hmem => ?_⟩⟩
    · rw [portsMarked_length, portsMarked_length]
    · rw [nth_portsMarked _ (nth_portsMarked _ hy)]
      rcases hn with hn | hn
      · simp only [hn, if_true, ite_self]
      · simp only [hn, if_true]
        split <;> rfl
    · rw [not_or] at hn
      rw [nth_portsMarked _ (nth_portsMarked _ hy), if_neg hn.1, if_neg hn.2]
    · rw [get_probesPlaced _ _ _ h1 h40, get_probesPlaced _ _ _ h1 h40]
      rcases hn with hn | hn
      · simp only [hn, if_true, ite_self]
        rfl
      · simp only [hn, if_true]
        split <;> rfl
    · rw [get_probesPlaced _ _ _ h1 h40, get_probesPlaced _ _ _ h1 h40, if_neg ho, if_neg ht]
      rfl
    · have hports : l = p.ports := ascending_ext hl p.ports_sorted (fun k => (hmem k).trans (p.mem_ports k).symm)
      rw [Cell.abort_unacted hs ((step.not_acted_iff).2 hact), hports]
      refine foldl_returnPort_congr (fun n k hn => ?_) _ (by rw [Cell.seq_aborted]; rfl)
      cases hy : n.port? a k with
      | none => simp only [returned, hy, returnPort_none hy]
      | some y =>
        rw [returnPort_still k hn hy]
        simp only [returned, hy]
        rfl
  · intro c m ended answers awaited left rested
    have hended : ∀ {cause n}, c.Ended a step p cause n → ended cause (s.withCell n) := fun h => h
    have hanswered : ∀ {cause n code words status body}, c.Ended a step p cause n →
        ended cause (s.answered code words status body { s.dev with cell := n }) := fun h => h
    have hawaited : ∀ k line level, awaited k line level = p.Awaits m.seq k step line level := fun _ _ _ => rfl
    clear_value ended awaited
    refine ⟨fun hs hh k line port hp hd hf => ?_, fun hs hh ht => ⟨?_, ?_⟩, fun hs ht => ⟨?_, ?_⟩, fun hs h => ⟨?_, ?_⟩,
      fun hs hh hrun ht => ⟨silenceExpiry_leaves hh hrun ht, hended ?_⟩, fun hs ht hrun => ⟨armDisable_leaves ht ha hrun, hanswered ?_⟩,
      fun hs ht => ?_, fun hs h => ?_⟩
    · intro level taken ht
      have htaken : taken = c.takePin a k line := by cases line <;> rfl
      clear_value taken
      subst htaken
      have hseq : ((c.takePin a k line).arm a).seq = m.seq := c.seq_takePin a k line
      refine ⟨fun hn hw => ⟨filterExpiry_sensor hs hh hp hd hf ht hn ?_, hended (Cell.ended_abort hs ?_ ?_)⟩,
        fun hdrop hpick hline hset hclear => ?_⟩
      · rw [← hawaited]
        exact hw
      · rw [hseq]
      · rw [Cell.notices_takePin]
      · subst hline
        have hstop : ((c.takePin a k .head).arm a).stop = none := by
          rw [Cell.takePin, Cell.modRackPort, Cell.modRack_eq, Cell.arm_modArm_same]
          exact hclear
        obtain ⟨hlseq, hln⟩ := (c.takePin a k .head).latchStop_leaves a a (.rack k)
        refine ⟨⟨filterExpiry_stop hs hh hp hd hf ht (by simp [hdrop, hpick]) hset hclear, hended (Cell.ended_abort hs ?_ ?_)⟩, ?_⟩
        · rw [hlseq, hseq]
        · rw [hln, Cell.notices_takePin]
        · exact ((Cell.follows_abort _ a .stop).arm a).stop _ (Cell.stop_latchStop hstop)
    · refine (s.event_live _ hh).trans (congrArg (fun n => Host.Outcome.next (s.withCell n)) ?_)
      exact if_pos ht
    · exact hended (Cell.ended_abort hs (by rw [Cell.arm_modArm_same]) (by rw [Cell.notices_modArm]))
    · refine s.command_cell 1032 3 0 _ ht _ .ok _ (fun c => c.abort a .cellAbort) ?_ rfl rfl
      simp only [serveChangeAbortCell, ha, Device.cell_clocked, show (s.dev.cell.arm a).seq.state = _ from hs, SeqState.inCycle, if_true]
    · exact hanswered (Cell.ended_abort hs rfl rfl)
    · refine State.service_cell h (serveChangeAbort a tag) rfl ?_
      simp only [serveChangeAbort, Cell.running_eq, State.mode_atService, h.2.1, State.seq_atService,
        show (s.dev.cell.arm a).seq.state = _ from hs, SeqState.inCycle]
      rfl
    · refine hended (Cell.ended_abort hs ?_ ?_)
      · rw [Cell.handOver_eq, Cell.arm_modArm_same, State.seq_atService]
      · rw [Cell.handOver_eq, Cell.notices_modArm, State.notices_atService]
    · exact (Cell.ended_leaveRun .off none hs).after (by rw [Cell.arm_addNotice]; rfl) (Cell.rests_addNotice _ _).notices
    · exact Cell.ended_leaveRun .off none hs
    · refine s.command_leaves 1032 3 8 _ ht .badState _ ?_ rfl
      simp only [serveChangeAbortCell, ha, Device.cell_clocked, show (s.dev.cell.arm a).seq.state.inCycle = _ from hs]
      rfl
    · refine State.service_cell h (serveChangeAbort a tag) rfl ?_
      simp only [serveChangeAbort, State.seq_atService, show (s.dev.cell.arm a).seq.state.inCycle = _ from hs, Bool.and_false,
        Bool.false_eq_true, if_false]
      rfl

end Sys2Proof.Machine
end

section
/-! PROOFS. CHANGE_RESOLVE (R109, R114, R137, R145, R146, R172): O48. -/

namespace Sys2Proof.Machine

/-! ### Port states changed on a rack -/

/-- `m'` is `m` with other ports in the same boxes. -/
structure Arm.Restated (m m' : Arm) : Prop where
  arm : m' = { m with rack := { m.rack with ports := m'.rack.ports } }
  boxes : m'.rack.ports.map (fun y => y.box) = m.rack.ports.map (fun y => y.box)

theorem Arm.Restated.refl (m : Arm) : m.Restated m := ⟨rfl, rfl⟩

theorem Arm.Restated.trans {m n k : Arm} (h : m.Restated n) (g : n.Restated k) : m.Restated k :=
  ⟨by rw [g.arm, h.arm], g.boxes.trans h.boxes⟩

/-- What joins the exit set depends on the boxes, the last sample, the exit set and the sequencer's state alone (R146). -/
theorem Arm.exitSetAfter_congr {m m' : Arm} (st : SeqState) (hsettings : m'.settings = m.settings)
    (hboxes : m'.rack.ports.map (fun y => y.box) = m.rack.ports.map (fun y => y.box)) (hsample : m'.lastSample = m.lastSample)
    (hexit : m'.exitSet = m.exitSet) (hstate : m'.seq.state = m.seq.state) : m'.exitSetAfter st = m.exitSetAfter st := by
  have hbox : ∀ b, m'.rackBox b = m.rackBox b := by
    intro b
    cases b with
    | zero => simp only [Arm.rackBox, hsettings]
    | succ k => simp only [Arm.rackBox, ← List.getElem?_map, hboxes]
  have hinside : m'.insideRackBox = m.insideRackBox := by
    funext b u
    simp only [Arm.insideRackBox, hbox]
  simp only [Arm.exitSetAfter, hinside, hexit, hsample, hstate]

theorem Rack.startMask_boxes (r : Rack) : r.startMask.ports.map (fun y => y.box) = r.ports.map (fun y => y.box) := by
  simp only [Rack.startMask]
  split
  · rfl
  · exact List.map_map

theorem changeNth_map_box (l : List Port) (k : Nat) (f : Port → Port) (hf : ∀ y, (f y).box = y.box) :
    (changeNth l k f).map (fun y => y.box) = l.map (fun y => y.box) := by
  refine List.ext_getElem? (fun i => ?_)
  rw [List.getElem?_map, List.getElem?_map]
  change ((nth (changeNth l k f) (i + 1)).map _) = ((nth l (i + 1)).map _)
  by_cases hk : i + 1 = k
  · subst hk
    cases hn : nth l (i + 1) with
    | none =>
      have : nth (changeNth l (i + 1) f) (i + 1) = none := by
        simp only [nth, changeNth, List.getElem?_eq_none_iff, List.length_modify] at hn ⊢
        exact hn
      rw [this]
    | some y =>
      rw [nth_changeNth_same _ _ _ _ hn]
      simp only [Option.map_some, hf]
  · rw [nth_changeNth_other _ _ _ _ hk]

/-- Only the ports' states change when a probe goes OUT. -/
theorem Cell.restated_probeOut (c : Cell) (p : Nat) (a : ArmId) : (c.arm a).Restated ((c.probeOut p).arm a) := by
  have hboxes : ∀ l : List Port, (l.map (Port.dropExpectation p)).map (fun y => y.box) = l.map (fun y => y.box) := by
    intro l
    rw [List.map_map]
    refine List.map_congr_left (fun y _ => ?_)
    simp only [Function.comp, Port.dropExpectation]
    split <;> rfl
  simp only [Cell.probeOut]
  split
  · simp only [Cell.freeProbe, Cell.arm_modProbe, Cell.dropExpectation, Cell.modRack_eq]
    rcases ArmId.eq_or_other (c.probe p).home a with rfl | rfl
    · rw [Cell.arm_modArm_same]
      exact ⟨rfl, hboxes _⟩
    · rw [Cell.arm_modArm_other]
      exact .refl _
  · rw [Cell.arm_modProbe]
    exact .refl _

theorem Cell.restated_resolveUnnamed (c : Cell) (a : ArmId) (p : Option Nat) (seated drop pick : Nat) :
    (c.arm a).Restated ((c.resolveUnnamed p seated drop pick).arm a) := by
  simp only [Cell.resolveUnnamed]
  split
  · exact .refl _
  · split
    · exact .refl _
    · exact c.restated_probeOut _ a

/-! ### The records of an accepted CHANGE_RESOLVE (R137) -/

/-- The state that an entry gives a plan port. -/
def resolvedState (entry seated : Nat) (origin : Option Nat) : PortState :=
  if entry ≠ 0 then .holding entry else if seated ≠ 0 ∧ origin = some seated then .vacant seated else .empty

/-- The probe table with the probe that a port's entry names in its rack. -/
def probesEntered (probes : Table Probe 40) (port : Option Nat) (entry : Nat) : Table Probe 40 :=
  match port with
  | none => probes
  | some k => if entry ≠ 0 then probes.set entry { probes.get entry Probe.reset with location := .rack k } else probes

theorem get_probesEntered_same (probes : Table Probe 40) (k : Nat) {n : Nat} (h1 : 1 ≤ n) (h40 : n ≤ 40) :
    (probesEntered probes (some k) n).get n Probe.reset = { probes.get n Probe.reset with location := .rack k } := by
  simp only [probesEntered, if_pos (show n ≠ 0 by omega)]
  exact Table.get_set_same _ _ _ _ h1 h40

theorem get_probesEntered_other (probes : Table Probe 40) (port : Option Nat) {entry n : Nat} (h : n ≠ entry) :
    (probesEntered probes port entry).get n Probe.reset = probes.get n Probe.reset := by
  simp only [probesEntered]
  split
  · rfl
  · split
    · exact Table.get_set_other _ _ _ _ _ h
    · rfl

theorem Cell.resolvePort_eq (c : Cell) (a : ArmId) (port : Option Nat) (entry seated : Nat) (origin : Option Nat) :
    c.resolvePort a port entry seated origin =
      ({ c with probes := probesEntered c.probes port entry } : Cell).modArm a (fun m =>
        { m with rack := { m.rack with ports := portsMarked m.rack.ports port (resolvedState entry seated origin) } }) := by
  cases port with
  | none => exact (c.modArm_id a).symm
  | some k =>
    simp only [Cell.resolvePort, resolvedState, probesEntered]
    split
    · rw [Cell.placeProbe_setPortState, Cell.setPortState_marks, Cell.withProbes_modArm]
      rfl
    · split
      · exact c.setPortState_marks a (some k) _
      · exact c.setPortState_marks a (some k) _

/-- The probe table with the probe seated. -/
def probesSeated (probes : Table Probe 40) (seated : Nat) : Table Probe 40 :=
  if seated = 0 then probes else probes.set seated { probes.get seated Probe.reset with location := .seated }

theorem get_probesSeated_same (probes : Table Probe 40) {n : Nat} (h1 : 1 ≤ n) (h40 : n ≤ 40) :
    (probesSeated probes n).get n Probe.reset = { probes.get n Probe.reset with location := .seated } := by
  simp only [probesSeated, if_neg (show ¬n = 0 by omega)]
  exact Table.get_set_same _ _ _ _ h1 h40

theorem get_probesSeated_other (probes : Table Probe 40) {seated n : Nat} (h : n ≠ seated) :
    (probesSeated probes seated).get n Probe.reset = probes.get n Probe.reset := by
  simp only [probesSeated]
  split
  · rfl
  · exact Table.get_set_other _ _ _ _ _ h

/-- The cell with the records that the three entries name. -/
def Cell.resolvedRecords (c : Cell) (a : ArmId) (p : Plan) (seated drop pick : Nat) : Cell :=
  ({ c with probes :=
      probesSeated (probesEntered (probesEntered c.probes p.drop drop) p.pick pick) seated } : Cell).modArm a (fun x =>
    { x with
      rack := { x.rack with
        ports := portsMarked (portsMarked (c.arm a).rack.ports p.drop (resolvedState drop seated p.old)) p.pick
          (resolvedState pick seated p.target) }
      seq := { x.seq with seated := resolvedSeat seated } })

theorem Cell.resolvedRecords_eq (c : Cell) (a : ArmId) (p : Plan) (seated drop pick : Nat) :
    (let n := ((c.resolvePort a p.drop drop seated p.old).resolvePort a p.pick pick seated p.target).modSeq a
      (fun q => { q with seated := resolvedSeat seated })
    if seated = 0 then n else n.placeProbe seated .seated) = c.resolvedRecords a p seated drop pick := by
  have hplace : ∀ n : Cell, (if seated = 0 then n else n.placeProbe seated .seated) =
      { n with probes := probesSeated n.probes seated } := by
    intro n
    simp only [probesSeated]
    split <;> rfl
  simp only [hplace, Cell.resolvePort_eq, Cell.resolvedRecords, Cell.modSeq_eq, Cell.withProbes_modArm, Cell.modArm_modArm,
    Cell.probes_modArm]
  exact Cell.modArm_congr _ a _ _ (by simp only [Cell.arm_withProbes])

theorem Cell.restated_records (c : Cell) (a : ArmId) (p : Plan) (seated drop pick : Nat) :
    ({ c.arm a with seq := { (c.arm a).seq with seated := resolvedSeat seated } } : Arm).Restated
      ((c.resolvedRecords a p seated drop pick).arm a) := by
  have hmarked : ∀ (l : List Port) (k : Option Nat) (st : PortState),
      (portsMarked l k st).map (fun y => y.box) = l.map (fun y => y.box) := by
    intro l k st
    cases k with
    | none => rfl
    | some n => exact changeNth_map_box _ _ _ (fun _ => rfl)
  simp only [Cell.resolvedRecords, Cell.arm_modArm_same, Cell.arm_withProbes]
  exact ⟨rfl, by simp only [hmarked]⟩

/-- An accepted CHANGE_RESOLVE: the records, the probes named nowhere, and the end of the change (R114, R137, R146). -/
theorem Cell.resolveChange_eq (c : Cell) (a : ArmId) (p : Plan) (seated drop pick : Nat) :
    c.resolveChange a p seated drop pick =
      ((((c.resolvedRecords a p seated drop pick).resolveUnnamed p.old seated drop pick).resolveUnnamed p.target seated drop pick).modArm
        a (fun x => { x with
          exitSet := (c.arm a).exitSetAfter .idle
          seq := { x.seq with latch := false, state := .idle }
          rack := if (c.arm a).seq.latch = false ∨ (c.arm a).rack.params.maskTime = 0 then x.rack
            else { x.rack with
              maskTimer := some (c.arm a).rack.params.maskTime
              ports := x.rack.ports.map (fun y => { y with occupiedFilter := none, headFilter := none }) } })).retest a := by
  have hrecords := c.resolvedRecords_eq a p seated drop pick
  simp only at hrecords
  simp only [Cell.resolveChange, hrecords]
  refine congrArg (fun n : Cell => n.retest a) ?_
  have hstated := (c.restated_records a p seated drop pick).trans
    ((Cell.restated_resolveUnnamed _ a p.old seated drop pick).trans (Cell.restated_resolveUnnamed _ a p.target seated drop pick))
  generalize ((c.resolvedRecords a p seated drop pick).resolveUnnamed p.old seated drop pick).resolveUnnamed p.target seated drop
    pick = g at hstated
  have hlatch : (g.arm a).seq.latch = (c.arm a).seq.latch := by rw [hstated.arm]
  have hparams : (g.arm a).rack.params = (c.arm a).rack.params := by rw [hstated.arm]
  have hmasked : (if (g.arm a).seq.latch = false then (g.arm a).rack else (g.arm a).rack.startMask) =
      if (c.arm a).seq.latch = false ∨ (c.arm a).rack.params.maskTime = 0 then (g.arm a).rack
      else { (g.arm a).rack with
        maskTimer := some (c.arm a).rack.params.maskTime
        ports := (g.arm a).rack.ports.map (fun y => { y with occupiedFilter := none, headFilter := none }) } := by
    simp only [hlatch, Rack.startMask, hparams]
    by_cases hl : (c.arm a).seq.latch = false
    · rw [if_pos hl, if_pos (.inl hl)]
    · rw [if_neg hl]
      by_cases hm : (c.arm a).rack.params.maskTime = 0
      · rw [if_pos hm, if_pos (.inr hm)]
      · rw [if_neg hm, if_neg (fun h => h.elim hl hm)]
  have hboxes : (if (g.arm a).seq.latch = false then (g.arm a).rack else (g.arm a).rack.startMask).ports.map (fun y => y.box) =
      (c.arm a).rack.ports.map (fun y => y.box) := by
    refine Eq.trans ?_ hstated.boxes
    split
    · rfl
    · exact Rack.startMask_boxes _
  have hexit : ({ g.arm a with
      rack := if (g.arm a).seq.latch = false then (g.arm a).rack else (g.arm a).rack.startMask
      seq := { (g.arm a).seq with latch := false } } : Arm).exitSetAfter .idle = (c.arm a).exitSetAfter .idle :=
    Arm.exitSetAfter_congr .idle (by rw [hstated.arm]) hboxes (by rw [hstated.arm]) (by rw [hstated.arm]) (by rw [hstated.arm])
  rw [Cell.setLatch_eq, Cell.setSeqState, Cell.modArm_modArm]
  refine Cell.modArm_congr g a _ _ ?_
  have hput : ∀ {e e' : List Nat} {r r' : Rack}, e = e' → r = r' →
      ({ g.arm a with exitSet := e, rack := r, seq := { (g.arm a).seq with latch := false, state := .idle } } : Arm) =
        { g.arm a with exitSet := e', rack := r', seq := { (g.arm a).seq with latch := false, state := .idle } } := by
    rintro e _ r _ rfl rfl
    rfl
  exact hput hexit hmasked

/-! ### The checks of CHANGE_RESOLVE (R137) -/

section Refusal
variable {c : Cell} {a : ArmId} {seated drop pick : Nat}

theorem Cell.resolveRefusal_high (h : 40 < seated ∨ 40 < drop ∨ 40 < pick) : c.resolveRefusal a seated drop pick = some .badArg :=
  if_pos h

theorem Cell.resolveRefusal_state (hh : ¬(40 < seated ∨ 40 < drop ∨ 40 < pick))
    (h : (∀ cause step p, (c.arm a).seq.state ≠ .changeFault cause step p) ∨ (c.arm a).port.mode = .starting) :
    c.resolveRefusal a seated drop pick = some .badState := by
  simp only [Cell.resolveRefusal, if_neg hh, Cell.mode_eq]
  cases hs : (c.arm a).seq.state with
  | idle | cycle => rfl
  | changeFault cause step p => exact if_pos (h.resolve_left (fun hn => hn cause step p hs))

/-- A probe or port that the plan does not know, or a probe named twice (R137, step 3). -/
def Plan.Misnamed (p : Plan) (seated drop pick : Nat) : Prop :=
  (drop ≠ 0 ∧ p.drop = none) ∨ (pick ≠ 0 ∧ p.pick = none) ∨ ¬(seated = 0 ∨ p.old = some seated ∨ p.target = some seated) ∨
    ¬(drop = 0 ∨ p.old = some drop ∨ p.target = some drop) ∨ ¬(pick = 0 ∨ p.old = some pick ∨ p.target = some pick) ∨
    (seated ≠ 0 ∧ (seated = drop ∨ seated = pick)) ∨ (drop ≠ 0 ∧ drop = pick)

theorem Plan.misnamed_iff (p : Plan) (seated drop pick : Nat) :
    ((drop ≠ 0 ∧ p.drop = none) ∨ (pick ≠ 0 ∧ p.pick = none) ∨ (!p.allows seated) = true ∨ (!p.allows drop) = true ∨
      (!p.allows pick) = true ∨ namedTwice seated drop pick = true) ↔ p.Misnamed seated drop pick := by
  simp [Plan.Misnamed, Plan.allows, namedTwice, and_assoc]

/-- An entry disagrees with its port (R137, step 4). -/
theorem Cell.entryDisagrees_iff (c : Cell) (a : ArmId) (port : Option Nat) (entry : Nat) :
    c.entryDisagrees a port entry = true ↔ ∃ k y, port = some k ∧ c.port? a k = some y ∧ (y.occupied = true ↔ entry = 0) := by
  cases port with
  | none => simp [Cell.entryDisagrees]
  | some k =>
    simp only [Cell.entryDisagrees, Option.bind_some]
    cases hy : c.port? a k with
    | none => simp [hy]
    | some y => cases ho : y.occupied <;> simp [hy, ho]

theorem Cell.resolveRefusal_faulted {cause : AbortCause} {step : Step} {p : Plan} (hh : ¬(40 < seated ∨ 40 < drop ∨ 40 < pick))
    (hs : (c.arm a).seq.state = .changeFault cause step p) (hm : (c.arm a).port.mode ≠ .starting) :
    (p.Misnamed seated drop pick → c.resolveRefusal a seated drop pick = some .badArg) ∧
    (¬p.Misnamed seated drop pick →
      ((c.entryDisagrees a p.drop drop = true ∨ c.entryDisagrees a p.pick pick = true) →
        c.resolveRefusal a seated drop pick = some .disagrees) ∧
      (c.entryDisagrees a p.drop drop = false → c.entryDisagrees a p.pick pick = false →
        (((c.arm a).port.mode = .run ∧ (c.envelopeFor a (resolvedSeat seated)).emptyOnAxis = true) →
          c.resolveRefusal a seated drop pick = some .tooLarge) ∧
        (¬((c.arm a).port.mode = .run ∧ (c.envelopeFor a (resolvedSeat seated)).emptyOnAxis = true) →
          c.resolveRefusal a seated drop pick = none))) := by
  simp only [Cell.resolveRefusal, if_neg hh, hs]
  rw [if_neg (show ¬c.mode a = .starting from hm)]
  refine ⟨fun h => if_pos ((p.misnamed_iff _ _ _).2 h), fun h => ?_⟩
  rw [if_neg (fun hn => h ((p.misnamed_iff _ _ _).1 hn))]
  refine ⟨fun hd => if_pos (by rwa [Bool.or_eq_true]), fun hdrop hpick => ?_⟩
  simp only [hdrop, hpick, Bool.or_self, Bool.false_eq_true, if_false, Cell.running_eq, Bool.and_eq_true, beq_iff_eq]
  exact ⟨fun hl => if_pos hl, fun hl => if_neg hl⟩

end Refusal

/-! ### The probes of an accepted CHANGE_RESOLVE -/

/-- Where the entries put the probes (R137). -/
theorem probesResolved_lie {p : Plan} {seated drop pick : Nat} (hok : ¬p.Misnamed seated drop pick) (probes : Table Probe 40) {n : Nat}
    (h1 : 1 ≤ n) (h40 : n ≤ 40) :
    let placed := (probesSeated (probesEntered (probesEntered probes p.drop drop) p.pick pick) seated).get n Probe.reset
    (n = seated → placed = { probes.get n Probe.reset with location := .seated }) ∧
    (n = pick → ∀ k, p.pick = some k → placed = { probes.get n Probe.reset with location := .rack k }) ∧
    (n = drop → ∀ k, p.drop = some k → placed = { probes.get n Probe.reset with location := .rack k }) ∧
    (n ≠ seated → n ≠ drop → n ≠ pick → placed = probes.get n Probe.reset) := by
  have htwice : ¬(seated ≠ 0 ∧ (seated = drop ∨ seated = pick)) ∧ ¬(drop ≠ 0 ∧ drop = pick) := by
    simp only [Plan.Misnamed, not_or] at hok
    obtain ⟨-, -, -, -, -, hseat, hdrop⟩ := hok
    exact ⟨by simpa using hseat, hdrop⟩
  intro placed
  refine ⟨fun hn => ?_, fun hn k hk => ?_, fun hn k hk => ?_, fun hs hd hp => ?_⟩
  · subst hn
    simp only [placed]
    rw [get_probesSeated_same _ h1 h40, get_probesEntered_other _ _ (by omega), get_probesEntered_other _ _ (by omega)]
  · subst hn
    simp only [placed, hk]
    rw [get_probesSeated_other _ (by omega), get_probesEntered_same _ k h1 h40, get_probesEntered_other _ _ (by omega)]
  · subst hn
    simp only [placed, hk]
    rw [get_probesSeated_other _ (by omega), get_probesEntered_other _ _ (by omega), get_probesEntered_same _ k h1 h40]
  · simp only [placed]
    rw [get_probesSeated_other _ hs, get_probesEntered_other _ _ hp, get_probesEntered_other _ _ hd]

/-- Settles O48: the checks of CHANGE_RESOLVE in order, and the records of an accepted one. -/
theorem changeResolveSetsTheRecords : Obligations.ChangeResolveSetsTheRecords := by
  unfold Obligations.ChangeResolveSetsTheRecords
  refine ⟨fun arm seated drop pick s ht ha => ?_, fun arm seated drop pick a s ht ha => ?_⟩
  · refine s.command_leaves 1033 6 7 _ ht .badArg _ ?_ rfl
    simp only [serveChangeResolve, ha]
    rfl
  · intro c m answers high
    have hrefused : ∀ st, c.resolveRefusal a seated drop pick = some st → answers st.number s.dev := by
      intro st h
      refine s.command_leaves 1033 6 st.number _ ht st _ ?_ rfl
      simp only [serveChangeResolve, ha, Device.cell_clocked, show s.dev.cell.resolveRefusal a seated drop pick = some st from h]
      rfl
    refine ⟨fun hh => hrefused _ (Cell.resolveRefusal_high hh), fun hh h => hrefused _ (Cell.resolveRefusal_state hh h),
      fun cause step p hh hs hm => ?_⟩
    intro known misnamed differs seat tooLarge left resolved gone
    obtain ⟨hbad, hnamed⟩ := Cell.resolveRefusal_faulted (c := c) hh hs hm
    have hdiffers : ∀ port entry, differs port entry ↔ c.entryDisagrees a port entry = true :=
      fun port entry => (c.entryDisagrees_iff a port entry).symm
    have hagrees : ∀ port entry, ¬differs port entry → c.entryDisagrees a port entry = false :=
      fun port entry h => Bool.eq_false_iff.2 (fun hd => h ((hdiffers port entry).2 hd))
    refine ⟨fun hmis => hrefused _ (hbad hmis), fun hmis hd => hrefused _ ((hnamed hmis).1 ?_), fun hmis hd hp hl => ?_,
      fun hmis hd hp hl => ?_⟩
    · exact hd.imp (hdiffers _ _).1 (hdiffers _ _).1
    · exact hrefused _ (((hnamed hmis).2 (hagrees _ _ hd) (hagrees _ _ hp)).1 hl)
    · refine ⟨portsMarked (portsMarked m.rack.ports p.drop (resolvedState drop seated p.old)) p.pick (resolvedState pick seated p.target),
        probesSeated (probesEntered (probesEntered c.probes p.drop drop) p.pick pick) seated, m.exitSetAfter .idle,
        ⟨?_, fun k y hy => ?_⟩, fun n h1 h40 => probesResolved_lie hmis c.probes h1 h40, m.exitsInto_exitSetAfter .idle rfl, ?_⟩
      · rw [portsMarked_length, portsMarked_length]
      · rw [nth_portsMarked _ (nth_portsMarked _ hy)]
        by_cases hpick : p.pick = some k
        · simp only [resolved, hpick, if_true]
          split <;> rfl
        · by_cases hdrop : p.drop = some k
          · simp only [resolved, hpick, hdrop, if_true, if_false]
            rfl
          · simp only [resolved, hpick, hdrop, if_false]
      · intro set done
        have hok := ((hnamed hmis).2 (hagrees _ _ hd) (hagrees _ _ hp)).2 hl
        refine s.command_cell 1033 6 0 _ ht _ .ok _ (fun c => c.resolveChange a p seated drop pick) ?_
          (c.resolveChange_eq a p seated drop pick) rfl
        simp only [serveChangeResolve, ha, Device.cell_clocked, show s.dev.cell.resolveRefusal a seated drop pick = none from hok,
          show (s.dev.cell.arm a).seq.state = _ from hs, SeqState.plan?]

end Sys2Proof.Machine
end

section
/-! PROOFS. ARM_CONFIG and CHECK (R139 to R143, R149 to R153): O49 and O50. -/

namespace Sys2Proof.Machine

/-! ### ARM_CONFIG (R139, R140) -/

theorem clampSettings_eq (x : ArmSettings) :
    clampSettings x = { x with
      unknownBox := ⟨⟨max (-5100000) (min 5100000 x.unknownBox.lo.x), max (-5100000) (min 5100000 x.unknownBox.lo.y),
          max (-5100000) (min 5100000 x.unknownBox.lo.z)⟩,
        ⟨max (-5100000) (min 5100000 x.unknownBox.hi.x), max (-5100000) (min 5100000 x.unknownBox.hi.y),
          max (-5100000) (min 5100000 x.unknownBox.hi.z)⟩⟩
      scaleX := ⟨x.scaleX.r, min x.scaleX.alpha 40000⟩
      scaleY := ⟨x.scaleY.r, min x.scaleY.alpha 40000⟩
      scaleZ := ⟨x.scaleZ.r, min x.scaleZ.alpha 40000⟩
      margin := max 0 (min x.margin 1000000)
      silence := min (max x.silence 50) 2000 } := by
  simp only [clampSettings, Box.clamp, Point.clamp, clampInt_eq _ _ _ (by decide : (-5100000 : Int) ≤ 5100000), clampNat_zero,
    clampInt_eq _ _ _ (by decide : (0 : Int) ≤ 1000000), clampNat_eq 50 2000 _ (by decide), Int.min_comm (1000000 : Int)]

theorem Cell.boxWith_eq (c : Cell) (s : ArmSettings) (seat : Seated) :
    c.boxWith s seat = match seat with
      | .noProbe => ⟨⟨0, 0, 0⟩, ⟨0, 0, 0⟩⟩
      | .unknown => s.unknownBox
      | .probe p => (c.probe p).box := by cases seat <;> rfl

/-- No check of ARM_CONFIG fails but those of the envelopes (R140). -/
theorem serveArmConfig_judged {d : Device} {arm : Nat} {x : ArmSettings} {a : ArmId} (ha : armOfCode arm = some a)
    (hoff : (d.cell.arm a).port.mode = .off) (hcrossed : boundsCrossed x = false) :
    serveArmConfig arm x d =
      if (effectiveEnvelope (clampSettings x) (clampSettings x).unknownBox).emptyOnAxis = false ∧
          (effectiveEnvelope (clampSettings x) (d.cell.boxWith (clampSettings x) (d.cell.arm a).seq.seated)).emptyOnAxis = false then
        ⟨d.onCell (fun c => c.modArm a (fun m => { m with settings := clampSettings x, configured := true })),
          clampStatus (clampSettings x != x),
          settingsWords (clampSettings x) ++ boxWords
            (effectiveEnvelope (clampSettings x) (d.cell.boxWith (clampSettings x) (d.cell.arm a).seq.seated)).saturated⟩
      else .refuse d .tooLarge := by
  simp only [serveArmConfig, ha, Cell.isOff_of_off hoff, hcrossed, Bool.not_true, Bool.false_eq_true, if_false]
  cases (effectiveEnvelope (clampSettings x) (clampSettings x).unknownBox).emptyOnAxis with
  | true => simp
  | false =>
    cases (effectiveEnvelope (clampSettings x) (d.cell.boxWith (clampSettings x) (d.cell.arm a).seq.seated)).emptyOnAxis <;> simp

/-- Settles O49: ARM_CONFIG, and the effective envelope. -/
theorem armConfigStoresTheSettings : Obligations.ArmConfigStoresTheSettings := by
  unfold Obligations.ArmConfigStoresTheSettings
  refine ⟨?_, fun s b => rfl⟩
  intro arm x a s ht ha hoff hc hv hu hst b y used
  have hy : clampSettings x = y := clampSettings_eq x
  have hused : s.dev.cell.boxWith y (s.dev.cell.arm a).seq.seated = used := Cell.boxWith_eq _ _ _
  have hcrossed : boundsCrossed x = false := by simp only [boundsCrossed, hc, hv, hu, hst, Bool.or_self]
  have hserve := serveArmConfig_judged (d := s.dev.clocked 67) ha hoff hcrossed
  rw [hy, Device.cell_clocked, hused] at hserve
  split
  next henvelope =>
    rw [if_pos henvelope] at hserve
    exact s.command_answers 257 67 _ _ ht _ _ _ hserve (clampStatus_ne_number y x)
  next henvelope =>
    rw [if_neg henvelope] at hserve
    exact s.command_leaves 257 67 13 _ ht .tooLarge _ hserve rfl

/-! ### The lowest entry of an ascending list -/

theorem exists_cons_of_least {l : List Nat} {k : Nat} (hl : l.Pairwise (· < ·)) (hk : k ∈ l) (hleast : ∀ j, j < k → j ∉ l) :
    ∃ rest, l = k :: rest := by
  cases l with
  | nil => cases hk
  | cons x xs =>
    rcases List.mem_cons.1 hk with rfl | hxs
    · exact ⟨xs, rfl⟩
    · exact absurd List.mem_cons_self (hleast x ((List.pairwise_cons.1 hl).1 k hxs))

/-! ### What a move meets (R151, R152) -/

theorem Arm.closedBoxesOver_sorted (m : Arm) (swept : Box) : (m.closedBoxesOver swept).Pairwise (· < ·) :=
  List.Pairwise.filter _ List.pairwise_lt_range

theorem Arm.mem_closedBoxesOver (m : Arm) (swept : Box) (b : Nat) :
    b ∈ m.closedBoxesOver swept ↔ b ≤ m.rack.ports.length ∧ m.isOpen b = false ∧ ∃ box, m.rackBox b = some box ∧
      box.lo.x ≤ swept.hi.x ∧ swept.lo.x ≤ box.hi.x ∧ box.lo.y ≤ swept.hi.y ∧ swept.lo.y ≤ box.hi.y ∧
      box.lo.z ≤ swept.hi.z ∧ swept.lo.z ≤ box.hi.z := by
  simp only [Arm.closedBoxesOver, Arm.rackBoxNumbers, Arm.portCount, List.mem_filter, List.mem_range, Nat.lt_succ_iff]
  refine and_congr_right (fun _ => ?_)
  rw [Bool.and_eq_true, Bool.not_eq_true']
  refine and_congr_right (fun _ => ?_)
  cases m.rackBox b with
  | none => simp
  | some box => simp [Box.overlaps, and_assoc]

/-- The bays that a move meets and the arm does not hold (R152). -/
theorem Cell.mem_missing_neededBy (c : Cell) (a : ArmId) (s : ArmSettings) (box : Box) (xlo xhi z : Int) (k : Nat) :
    k ∈ c.bays.missing a (c.bays.neededBy s box xlo xhi z) ↔ k < c.bays.holders.length ∧ c.bays.holder k ≠ some a ∧
      s.safeDepth < z + box.hi.z ∧ c.bays.origin + k * c.bays.width ≤ xhi + s.bayOffset + box.hi.x + s.margin ∧
      xlo + s.bayOffset + box.lo.x - s.margin < c.bays.origin + (k + 1) * c.bays.width := by
  simp only [Bays.missing, Bays.neededBy, List.mem_filter]
  by_cases he : s.safeDepth < z + box.hi.z
  · rw [if_pos (show extended s box z = true from decide_eq_true he)]
    simp only [Bays.needed, Bays.meets, footprintLow, footprintHigh, List.mem_filter, List.mem_range, Bool.and_eq_true,
      decide_eq_true_eq, bne_iff_ne, ne_eq, he, true_and]
    exact ⟨fun ⟨⟨hk, hm⟩, hh⟩ => ⟨hk, hh, hm⟩, fun ⟨hk, hh, hm⟩ => ⟨⟨hk, hm⟩, hh⟩⟩
  · rw [if_neg (show ¬extended s box z = true from fun h => he (of_decide_eq_true h))]
    simp [he]

theorem Bays.missing_neededBy_sorted (b : Bays) (a : ArmId) (s : ArmSettings) (box : Box) (xlo xhi z : Int) :
    (b.missing a (b.neededBy s box xlo xhi z)).Pairwise (· < ·) := by
  refine List.Pairwise.filter _ ?_
  simp only [Bays.neededBy]
  split
  · exact b.needed_sorted _ _
  · exact List.Pairwise.nil

/-! ### CHECK (R149 to R153) -/

theorem State.usedBox_atService (s : State) (a : ArmId) : (s.atService a).usedBox a = s.dev.cell.usedBox a := by
  simp only [Cell.usedBox, State.seq_atService, State.boxFor_atService]

theorem State.checkResult_atService (s : State) (a : ArmId) (t : Point) :
    (s.atService a).checkResult a t = s.dev.cell.checkResult a t := by
  have hclosed : ((s.atService a).arm a).closedBoxesOver = (s.dev.cell.arm a).closedBoxesOver := by
    rw [s.arm_atService a]
    rfl
  have henvelope : (s.atService a).envelope a = s.dev.cell.envelope a := by
    simp only [Cell.envelope, State.seq_atService, State.envelopeFor_atService]
  have hjudge : ∀ u, (s.atService a).judgeMove a u t = s.dev.cell.judgeMove a u t := fun u => by
    simp only [Cell.judgeMove, hclosed, henvelope, State.bays_atService, State.settings_atService, State.usedBox_atService]
  have hrunning : (s.atService a).running a = s.dev.cell.running a := by
    simp only [Cell.running_eq, State.mode_atService]
  rw [Cell.checkResult, hrunning]
  simp only [State.stop_atService, State.lastSample_atService, hjudge]
  rfl

/-- A served CHECK hands its answer over (R153). -/
theorem State.check_answers {s : State} {a : ArmId} {tag : Nat} {t : Point} (hs : s.serves a (.check tag t)) {st : Status}
    {x : CheckAnswer} (h : s.dev.cell.checkResult a t = (st, x)) :
    exec (.check a tag t) s = .next (s.withCell ((s.atService a).handOver a (.checkResponse tag st x))) := by
  refine State.service_cell hs (serveCheck a tag t) rfl ?_
  simp only [serveCheck, State.checkResult_atService, h]

section CheckResult
variable {c : Cell} {a : ArmId} {t : Point} (hrun : (c.arm a).port.mode = .run)
include hrun

theorem Cell.checkResult_stopped {cause : StopCause} (h : (c.arm a).stop = some cause) :
    c.checkResult a t = (.ok, ⟨.blockedStopped, t, false, false, false, (stopCauseParts (some cause)).1,
      (stopCauseParts (some cause)).2.1, (stopCauseParts (some cause)).2.2⟩) := by
  simp only [Cell.checkResult, Cell.running_eq, hrun, h]
  rfl

theorem Cell.checkResult_lost (h : (c.arm a).stop = none) (hu : (c.arm a).lastSample = none) :
    c.checkResult a t = (.noPosition, CheckAnswer.zero) := by
  simp only [Cell.checkResult, Cell.running_eq, hrun, h, hu]
  rfl

theorem Cell.checkResult_judged {u : Point} (h : (c.arm a).stop = none) (hu : (c.arm a).lastSample = some u) :
    c.checkResult a t = (.ok, c.judgeMove a u t) := by
  simp only [Cell.checkResult, Cell.running_eq, hrun, h, hu]
  rfl

end CheckResult

/-- Settles O50: the answers of CHECK in their order. -/
theorem checkJudgesTheMove : Obligations.CheckJudgesTheMove := by
  unfold Obligations.CheckJudgesTheMove
  intro a tag t s hs c m e into q answers
  have hrun : (s.dev.cell.arm a).port.mode = .run := hs.2.1
  refine ⟨fun b h => State.check_answers hs (Cell.checkResult_stopped hrun h),
    fun k n h => State.check_answers hs (Cell.checkResult_stopped hrun h),
    fun h hu => State.check_answers hs (Cell.checkResult_lost hrun h hu), fun u h hu => ?_⟩
  intro swept closed missing
  have hclosed : ∀ b, closed b ↔ b ∈ m.closedBoxesOver swept := fun b => (m.mem_closedBoxesOver swept b).symm
  have hmissing : ∀ k, missing k ↔ k ∈ c.bays.missing a (c.bays.neededBy m.settings (c.usedBox a) swept.lo.x swept.hi.x swept.hi.z) :=
    fun k => (c.mem_missing_neededBy a m.settings (c.usedBox a) swept.lo.x swept.hi.x swept.hi.z k).symm
  have hjudged : ∀ x, c.judgeMove a u t = x → answers .ok x :=
    fun x hx => State.check_answers hs (by rw [Cell.checkResult_judged hrun h hu]; exact congrArg _ hx)
  have hjudge : c.judgeMove a u t = match m.closedBoxesOver swept with
      | b :: _ => checkAnswer .blockedRack t q 1 b
      | [] => match c.bays.missing a (c.bays.neededBy m.settings (c.usedBox a) swept.lo.x swept.hi.x swept.hi.z) with
        | k :: _ => checkAnswer .blockedBay t q 2 k
        | [] => checkAnswer (if t = q then .clear else .limited) t q 0 0 := rfl
  have hopen : (∀ b, ¬closed b) → m.closedBoxesOver swept = [] :=
    fun hno => List.eq_nil_iff_forall_not_mem.2 (fun b hb => hno b ((hclosed b).2 hb))
  refine ⟨fun b hb hlow => hjudged _ ?_, fun hno k hk hlow => hjudged _ ?_, fun hno hnone => hjudged _ ?_⟩
  · obtain ⟨rest, hrest⟩ := exists_cons_of_least (m.closedBoxesOver_sorted swept) ((hclosed b).1 hb)
      (fun j hj hm => hlow j hj ((hclosed j).2 hm))
    rw [hjudge, hrest]
    rfl
  · obtain ⟨rest, hrest⟩ := exists_cons_of_least (Bays.missing_neededBy_sorted _ _ _ _ _ _ _) ((hmissing k).1 hk)
      (fun j hj hm => hlow j hj ((hmissing j).2 hm))
    rw [hjudge, hopen hno, hrest]
    rfl
  · have hfree : c.bays.missing a (c.bays.neededBy m.settings (c.usedBox a) swept.lo.x swept.hi.x swept.hi.z) = [] :=
      List.eq_nil_iff_forall_not_mem.2 (fun k hk => hnone k ((hmissing k).2 hk))
    rw [hjudge, hopen hno, hfree]
    rfl

end Sys2Proof.Machine
end

section
/-! PROOFS. The bay arbiter (R157, R158, R160 to R164, R167, R168): O51, O52 and O53. -/

namespace Sys2Proof.Machine

/-! ### Ranges of bays -/

theorem mem_rangeOf (first last k : Nat) : k ∈ rangeOf first last ↔ first ≤ k ∧ k ≤ last := by
  simp only [rangeOf, List.mem_range'_1]
  omega

theorem rangeOf_sorted (first last : Nat) : (rangeOf first last).Pairwise (· < ·) := List.pairwise_lt_range'

/-- The lowest bay of a range with a property. -/
theorem find?_rangeOf {first last k : Nat} (p : Nat → Bool) (hk : first ≤ k ∧ k ≤ last) (hp : p k = true)
    (hlow : ∀ j, first ≤ j → j < k → p j = false) : (rangeOf first last).find? p = some k :=
  find?_eq_some_of_least p (rangeOf_sorted _ _) ((mem_rangeOf _ _ _).2 hk) hp (fun j hj hlt => hlow j ((mem_rangeOf _ _ _).1 hj).1 hlt)

theorem find?_rangeOf_none {first last : Nat} (p : Nat → Bool) (h : ∀ k, first ≤ k → k ≤ last → p k = false) :
    (rangeOf first last).find? p = none := by
  rw [List.find?_eq_none]
  intro k hk
  obtain ⟨h1, h2⟩ := (mem_rangeOf _ _ _).1 hk
  rw [h k h1 h2]
  exact Bool.false_ne_true

/-! ### Bays granted and freed (R161, R163, R167) -/

section Holders
variable (b : Bays) (a : ArmId) (first last : Nat)

theorem Bays.grant_length : (b.grant a first last).holders.length = b.holders.length := by simp [Bays.grant]

theorem Bays.grant_holders {k : Nat} (hk : k < b.holders.length) :
    (b.grant a first last).holders[k]? = if first ≤ k ∧ k ≤ last then some (some a) else b.holders[k]? := by
  simp only [Bays.grant, List.getElem?_map, List.getElem?_zipIdx, List.getElem?_eq_getElem hk, Option.map_some, Nat.zero_add]
  split <;> rfl

theorem Bays.holder_grant {k : Nat} (hk : k < b.holders.length) :
    (b.grant a first last).holder k = if first ≤ k ∧ k ≤ last then some a else b.holder k := by
  simp only [Bays.holder, b.grant_holders a first last hk]
  split <;> rfl

theorem Bays.free_length : (b.free a first last).holders.length = b.holders.length := by simp [Bays.free]

theorem Bays.holder_free (k : Nat) :
    (b.free a first last).holder k = if first ≤ k ∧ k ≤ last ∧ b.holder k = some a then none else b.holder k := by
  rcases hk : b.holders[k]? with _ | h <;> simp [Bays.holder, Bays.free, hk]

/-- All bays freed (R168). -/
theorem Bays.free_all :
    b.free a 0 (b.count - 1) = { b with holders := b.holders.map (fun h => if h = some a then none else h) } := by
  simp only [Bays.free]
  congr 1
  refine List.ext_getElem? (fun k => ?_)
  simp only [List.getElem?_map, List.getElem?_zipIdx, Nat.zero_add]
  cases hk : b.holders[k]? with
  | none => rfl
  | some h =>
    have hlt : k < b.count := (List.getElem?_eq_some_iff.1 hk).1
    simp only [Option.map_some, Nat.zero_le, true_and, show k ≤ b.count - 1 by omega]

/-- The bays that an arm holds, counted (R168). -/
theorem Bays.heldIn_all : b.heldIn a 0 (b.count - 1) = (b.holders.filter (fun h => h == some a)).length := by
  have hmap : b.holders = (List.range b.holders.length).map b.holder := by
    refine List.ext_getElem (by simp) (fun i h1 h2 => ?_)
    simp [Bays.holder, List.getElem?_eq_getElem h1]
  simp only [Bays.heldIn, rangeOf, Bays.count, Nat.sub_zero]
  cases hl : b.holders.length with
  | zero =>
    have hnil : b.holders = [] := List.length_eq_zero_iff.1 hl
    simp [Bays.holder, hnil]
  | succ n =>
    conv => rhs; rw [hmap, List.filter_map, List.length_map, hl]
    rw [List.range_eq_range']
    rfl

theorem Bays.anyHeld_iff : b.anyHeld = true ↔ ¬∀ h ∈ b.holders, h = none := by
  simp only [Bays.anyHeld, List.any_eq_true, Option.isSome_iff_ne_none, Classical.not_forall, exists_prop, ne_eq]

theorem Bays.heldByOther_iff (k : Nat) : b.heldByOther a k = true ↔ b.holder k = some a.other := by simp [Bays.heldByOther]

theorem Bays.badRange_iff : b.badRange first last = true ↔ ¬(last < b.holders.length ∧ first ≤ last) := by
  simp only [Bays.badRange, Bool.or_eq_true, decide_eq_true_eq]
  rw [Bays.count]
  omega

end Holders

/-! ### BAY_CONFIG, BAY_CLEAR and the wait timer (R158, R164, R168) -/

/-- Settles O51: BAY_CONFIG, BAY_CLEAR and the expiry of a wait timer. -/
theorem baysAreConfiguredClearedAndTimedOut : Obligations.BaysAreConfiguredClearedAndTimedOut := by
  unfold Obligations.BaysAreConfiguredClearedAndTimedOut
  refine ⟨fun count origin width s ht => ?_, fun arm a s ht ha => ?_, fun a s hh => ⟨fun hw => ?_, fun w hw hrun => ?_⟩⟩
  · intro w off free refused
    have hwidth : clampInt 10000 10000000 width = w := clampInt_eq_min_max 10000 10000000 width (by decide)
    have hrefused : ∀ (st : Status) (n : Nat), st.number = n →
        serveBayConfig count origin width (s.dev.clocked 7) = .refuse (s.dev.clocked 7) st → refused n :=
      fun st n hn h => s.command_leaves 259 7 n _ ht st _ h hn
    have hoff : off → ¬((!s.dev.cell.isOff .armA || !s.dev.cell.isOff .armB) = true) := by
      rintro ⟨hA, hB⟩
      rw [Cell.isOff_of_off hA, Cell.isOff_of_off hB]
      decide
    have hnot : ¬off → (!s.dev.cell.isOff .armA || !s.dev.cell.isOff .armB) = true := by
      intro h
      simp only [Cell.isOff_eq, Bool.or_eq_true, Bool.not_eq_true', beq_eq_false_iff_ne]
      exact Classical.not_and_iff_not_or_not.1 h
    refine ⟨fun hc => hrefused .badArg 7 rfl (if_pos hc), fun h1 h32 h => hrefused .badState 8 rfl ?_,
      fun h1 h32 h hf => hrefused .inUse 27 rfl ?_, fun h1 h32 h hf hhigh => hrefused .badArg 7 rfl ?_, fun h1 h32 h hf hhigh => ?_⟩
    · exact (if_neg (by omega)).trans (if_pos (hnot h))
    · exact (if_neg (by omega)).trans ((if_neg (hoff h)).trans (if_pos ((Bays.anyHeld_iff _).2 hf)))
    · refine (if_neg (by omega)).trans ((if_neg (hoff h)).trans ((if_neg (fun hn => (Bays.anyHeld_iff _).1 hn hf)).trans (if_pos ?_)))
      rw [hwidth]
      exact hhigh
    · refine s.command_cell 259 7 _ _ ht _ (clampStatus (w != width)) _ (fun c => c.onBays (fun _ => ⟨origin, w, List.replicate count none⟩))
        ?_ rfl (clampStatus_ne_number w width)
      rw [← hwidth]
      refine (if_neg (by omega)).trans ((if_neg (hoff h)).trans ((if_neg (fun hn => (Bays.anyHeld_iff _).1 hn hf)).trans (if_neg ?_)))
      rw [hwidth]
      exact Int.not_lt.2 hhigh
  · intro held
    refine ⟨fun h => ?_, fun h hw => ?_⟩
    · refine s.command_leaves 1034 3 8 _ ht .badState _ ?_ rfl
      simp only [serveBayClear, ha, Device.cell_clocked, Cell.isOff_of_not_off h]
      rfl
    · refine s.command_cell 1034 3 0 _ ht _ .ok _ (fun c => c.freeBays a 0 (s.dev.cell.bays.count - 1)) ?_ ?_ rfl
      · simp only [serveBayClear, ha, Device.cell_clocked, Cell.isOff_of_off h, Bays.heldIn_all]
        rfl
      · have hwait : ((s.dev.cell.onBays (fun b => b.free a 0 (s.dev.cell.bays.count - 1))).arm a.other).wait = none := by
          rw [Cell.arm_onBays]
          exact hw
        have htest : (s.dev.cell.onBays (fun b => b.free a 0 (s.dev.cell.bays.count - 1))).testWait a.other =
            s.dev.cell.onBays (fun b => b.free a 0 (s.dev.cell.bays.count - 1)) := by simp only [Cell.testWait, hwait]
        simp only [Cell.freeBays, htest, ite_self]
        simp only [Cell.onBays, Bays.free_all]
        rfl
  · refine (s.event_live _ hh).trans (congrArg (fun c => Host.Outcome.next (s.withCell c)) ?_)
    simp only [Cell.waitExpiry, hw]
  · refine (s.event_live _ hh).trans (congrArg (fun c => Host.Outcome.next (s.withCell c)) ?_)
    simp only [Cell.waitExpiry, hw, Cell.setWait_eq]
    exact Cell.message_run _ _ _ (by rw [Cell.arm_modArm_same]; exact hrun)

/-! ### RESERVE (R160 to R162) -/

theorem State.run_atService {s : State} {a : ArmId} (h : (s.dev.cell.arm a).port.mode = .run) :
    ((s.atService a).arm a).port.mode = .run := (s.mode_atService a).trans h

/-- What RESERVE is checked against stands at its service (R160). -/
theorem State.reserveRefusal_atService {s : State} {a : ArmId} (hrun : (s.dev.cell.arm a).port.mode = .run) (first last wait : Nat) :
    (s.atService a).reserveRefusal a first last wait =
      if (s.dev.cell.arm a).stop.isSome then some .stopped
      else if s.dev.cell.bays.badRange first last ∨ 10000 < wait then some .badArg
      else if (s.dev.cell.arm a).wait.isSome then some .pending else none := by
  have hrunning : (s.atService a).running a = true := by simp [State.run_atService hrun]
  rw [Cell.reserveRefusal, hrunning, s.stop_atService, s.wait_atService, s.bays_atService]
  rfl

/-- Settles O52: RESERVE refused, granted, answered or waiting. -/
theorem reserveIsGrantedRefusedOrWaits : Obligations.ReserveIsGrantedRefusedOrWaits := by
  unfold Obligations.ReserveIsGrantedRefusedOrWaits
  intro a tag first last wait s hs m b range others answers
  have hrun : (s.dev.cell.arm a).port.mode = .run := hs.2.1
  have hserved : ∀ c, serveReserve a tag first last wait (s.atService a) = c →
      exec (.reserve a tag first last wait) s = .next (s.withCell c) :=
    fun c h => State.service_cell hs (serveReserve a tag first last wait) rfl h
  have hrefusal := State.reserveRefusal_atService hrun first last wait
  have hrefused : ∀ st, (s.atService a).reserveRefusal a first last wait = some st → answers st 0 0 :=
    fun st h => hserved _ (by simp only [serveReserve, h]; rfl)
  have hclear : ∀ {α : Type} {x : Option α}, x = none → ¬(x.isSome = true) := fun h => by rw [h]; exact Bool.false_ne_true
  have hrange : range → ¬(s.dev.cell.bays.badRange first last = true ∨ 10000 < wait) := by
    rintro ⟨hl, hf, hw⟩ (hb | hb)
    · exact (Bays.badRange_iff _ _ _).1 hb ⟨hl, hf⟩
    · omega
  refine ⟨fun h => hrefused _ (hrefusal.trans (if_pos (Option.isSome_iff_ne_none.2 h))),
    fun h hr => hrefused _ (hrefusal.trans ((if_neg (hclear h)).trans (if_pos ?_))),
    fun h hr hw => hrefused _ (hrefusal.trans ((if_neg (hclear h)).trans ((if_neg (hrange hr)).trans
      (if_pos (Option.isSome_iff_ne_none.2 hw))))), fun h hr hw => ?_⟩
  · rw [Bays.badRange_iff]
    refine Classical.byContradiction (fun hno => ?_)
    rw [not_or, Classical.not_not] at hno
    exact hr ⟨hno.1.1, hno.1.2, Nat.not_lt.1 hno.2⟩
  have hnone : (s.atService a).reserveRefusal a first last wait = none :=
    hrefusal.trans ((if_neg (hclear h)).trans ((if_neg (hrange hr)).trans (if_neg (hclear hw))))
  have hothers : ∀ k, first ≤ k → k ≤ last → ¬others k → b.heldByOther a k = false :=
    fun k h1 h2 hno => Bool.eq_false_iff.2 (fun ho => hno ⟨h1, h2, (b.heldByOther_iff a k).1 ho⟩)
  have hfound : ∀ k, others k → (∀ j, j < k → ¬others j) → (rangeOf first last).find? (b.heldByOther a) = some k :=
    fun k ⟨h1, h2, hk⟩ hlow => find?_rangeOf _ ⟨h1, h2⟩ ((b.heldByOther_iff a k).2 hk)
      (fun j hj hlt => hothers j hj (by omega) (hlow j hlt))
  have hbays : (s.atService a).bays = b := s.bays_atService a
  have hconflict : (s.atService a).conflictBay a = s.dev.cell.conflictBay a := by
    simp only [Cell.conflictBay, State.other_atService, State.bays_atService]
  refine ⟨fun hno => ⟨(b.grant a first last).holders, b.grant_length a first last, fun k hk => ?_, hserved _ ?_⟩,
    fun k hk hlow h0 => hserved _ ?_, fun ⟨k0, hk0⟩ h0 => ?_⟩
  · exact b.grant_holders a first last (by rwa [b.grant_length] at hk)
  · simp only [serveReserve, hnone, hbays, find?_rangeOf_none _ (fun k h1 h2 => hothers k h1 h2 (hno k))]
    simp only [Cell.onBays, hbays]
    rfl
  · simp only [serveReserve, hnone, hbays, hfound k hk hlow, if_pos h0]
    rfl
  · have hex : ∃ k, (rangeOf first last).find? (b.heldByOther a) = some k := by
      rw [← Option.isSome_iff_exists, List.find?_isSome]
      exact ⟨k0, (mem_rangeOf _ _ _).2 ⟨hk0.1, hk0.2.1⟩, (b.heldByOther_iff a k0).2 hk0.2.2⟩
    obtain ⟨k1, hk1⟩ := hex
    refine ⟨fun w k hwait h1 h2 hk hlow => hserved _ ?_, fun hfree => hserved _ ?_⟩
    · have hbay : s.dev.cell.conflictBay a = some k := by
        simp only [Cell.conflictBay, hwait]
        exact find?_rangeOf _ ⟨h1, h2⟩ (by simpa using hk) (fun j hj hlt => by simpa using hlow j hj hlt)
      simp only [serveReserve, hnone, hbays, hk1, if_neg h0, hconflict, hbay]
      rfl
    · have hbay : s.dev.cell.conflictBay a = none := by
        simp only [Cell.conflictBay]
        split
        · rfl
        next w hwait => exact find?_rangeOf_none _ (fun k h1 h2 => by simpa using hfree w k hwait h1 h2)
      simp only [serveReserve, hnone, hbays, hk1, if_neg h0, hconflict, hbay]
      rfl

/-! ### RELEASE (R163, R167) -/

theorem State.needs_atService (s : State) (a : ArmId) (u : Point) : (s.atService a).needs a u = s.dev.cell.needs a u := by
  simp only [Cell.needs, State.bays_atService, State.settings_atService, State.usedBox_atService]

/-- The waiting arm's range is tested after bays have become FREE (R163). -/
theorem Cell.testWait_blocked {c : Cell} {b : ArmId} {w : WaitSlot} {k : Nat} (hw : (c.arm b).wait = some w)
    (hk : w.first ≤ k ∧ k ≤ w.last) (h : c.bays.holder k = some b.other) : c.testWait b = c := by
  have hno : ¬((rangeOf w.first w.last).all (fun k => !c.bays.heldByOther b k) = true) := by
    rw [List.all_eq_true]
    intro hall
    have := hall k ((mem_rangeOf _ _ _).2 hk)
    rw [(c.bays.heldByOther_iff b k).2 h] at this
    cases this
  simp only [Cell.testWait, hw, if_neg hno]

theorem Cell.testWait_granted {c : Cell} {b : ArmId} {w : WaitSlot} (hw : (c.arm b).wait = some w) (hrun : (c.arm b).port.mode = .run)
    (h : ∀ k, w.first ≤ k → k ≤ w.last → c.bays.holder k ≠ some b.other) :
    c.testWait b = (({ c with bays := c.bays.grant b w.first w.last } : Cell).modArm b (fun x => { x with wait := none })).handOver b
      (.grant w.tag .granted w.first w.last) := by
  have hall : (rangeOf w.first w.last).all (fun k => !c.bays.heldByOther b k) = true := by
    rw [List.all_eq_true]
    intro k hk
    obtain ⟨h1, h2⟩ := (mem_rangeOf _ _ _).1 hk
    rw [Bool.not_eq_true', Bool.eq_false_iff]
    exact fun ho => h k h1 h2 ((c.bays.heldByOther_iff b k).1 ho)
  simp only [Cell.testWait, hw, hall, if_true]
  exact Cell.message_run _ _ _ (by rw [Cell.setWait_eq, Cell.arm_modArm_same, Cell.arm_onBays]; exact hrun)

/-- Settles O53: RELEASE, and the grant of the other arm's wait. -/
theorem releaseFreesBaysAndGrantsTheWait : Obligations.ReleaseFreesBaysAndGrantsTheWait := by
  unfold Obligations.ReleaseFreesBaysAndGrantsTheWait
  intro a tag first last s hs m b range needs answers
  have hrun : (s.dev.cell.arm a).port.mode = .run := hs.2.1
  have hrunning : (s.atService a).running a = true := by simp [State.run_atService hrun]
  have hbays : (s.atService a).bays = b := s.bays_atService a
  have hserved : ∀ c, serveRelease a tag first last (s.atService a) = c →
      exec (.release a tag first last) s = .next (s.withCell c) :=
    fun c h => State.service_cell hs (serveRelease a tag first last) rfl h
  have hserve : serveRelease a tag first last (s.atService a) =
      if b.badRange first last then (s.atService a).respond a .release tag .badArg 0 0
      else match (s.atService a).standsOver a first last with
        | some k => (s.atService a).respond a .release tag .inUse k 0
        | none => ((s.atService a).respond a .release tag .ok (b.heldIn a first last) 0).freeBays a first last := by
    rw [serveRelease, hrunning, hbays]
    rfl
  have hin : range → ¬(b.badRange first last = true) := fun hr hb => (b.badRange_iff first last).1 hb hr
  have hstands : ∀ u, m.lastSample = some u → (s.atService a).standsOver a first last =
      (s.dev.cell.needs a u).find? (fun k => decide (first ≤ k) && decide (k ≤ last)) := fun u hu => by
    simp only [Cell.standsOver, State.lastSample_atService, State.needs_atService, show (s.dev.cell.arm a).lastSample = some u from hu]
  refine ⟨fun hr => hserved _ (hserve.trans (if_pos ((b.badRange_iff first last).2 hr))), fun hr k ⟨h1, h2, u, hu, hk⟩ hlow => hserved _ ?_,
    fun hr hno => ?_⟩
  · have hfind : (s.atService a).standsOver a first last = some k := by
      rw [hstands u hu]
      refine find?_eq_some_of_least _ (s.dev.cell.needs_sorted a u) hk (by simp [h1, h2]) (fun j hj hlt => ?_)
      refine Classical.byContradiction (fun hne => ?_)
      have hin : first ≤ j ∧ j ≤ last := by simpa using hne
      exact hlow j hlt ⟨hin.1, hin.2, u, hu, hj⟩
    rw [hserve, if_neg (hin hr), hfind]
    rfl
  · intro freed
    have hfind : (s.atService a).standsOver a first last = none := by
      cases hu : m.lastSample with
      | none => simp only [Cell.standsOver, State.lastSample_atService, show (s.dev.cell.arm a).lastSample = none from hu]
      | some u =>
        rw [hstands u hu, List.find?_eq_none]
        intro k hk hne
        have hin : first ≤ k ∧ k ≤ last := by simpa using hne
        exact hno k ⟨hin.1, hin.2, u, hu, hk⟩
    refine ⟨b.free a first last, rfl, rfl, b.free_length a first last, b.holder_free a first last, ?_⟩
    intro released
    have hreleased : serveRelease a tag first last (s.atService a) = if freed = 0 then released else released.testWait a.other := by
      rw [hserve, if_neg (hin hr), hfind]
      have hb : ((s.atService a).respond a .release tag .ok (b.heldIn a first last) 0).bays = b := by
        rw [Cell.respond_eq, Cell.handOver_eq, Cell.bays_modArm, hbays]
      simp only [Cell.freeBays, hb, Cell.onBays]
      rfl
    have hother : released.arm a.other = s.dev.cell.arm a.other := by
      have harm : released.arm a.other = ((s.atService a).handOver a (.shortResponse .release tag .ok freed 0)).arm a.other := by
        cases a <;> rfl
      rw [harm, Cell.handOver_eq, Cell.arm_modArm_other, s.other_atService]
    have hback : a.other.other = a := by cases a <;> rfl
    refine ⟨fun hcase => hserved _ (hreleased.trans ?_), fun w hfreed hw hwrun hfree => ?_⟩
    · split
      · rfl
      next hfreed =>
        rcases hcase with h0 | hw | ⟨w, k, hw, h1, h2, hk⟩
        · exact absurd h0 hfreed
        · rw [Cell.testWait, hother, hw]
        · exact Cell.testWait_blocked (by rw [hother]; exact hw) ⟨h1, h2⟩ (by rw [hback]; exact hk)
    · refine ⟨(b.free a first last).grant a.other w.first w.last, rfl, rfl, ?_, fun k hk => ?_, hserved _ (hreleased.trans ?_)⟩
      · rw [Bays.grant_length, Bays.free_length]
      · exact Bays.holder_grant _ _ _ _ (by rw [Bays.free_length]; exact hk)
      · rw [if_neg hfreed]
        exact Cell.testWait_granted (by rw [hother]; exact hw) (by rw [hother]; exact hwrun) (by rw [hback]; exact hfree)

end Sys2Proof.Machine
end

section
/-! PROOFS. STOP_RELEASE and the stop latch (R148, R169, R170, R173, R174): O54. -/

namespace Sys2Proof.Machine

/-! ### What gives a stop cause (R148, R173) -/

theorem exists_cons_of_lowest {l : List Nat} {k : Nat} (hl : l.Pairwise (· < ·)) (hk : k ∈ l) (hlow : ∀ j ∈ l, k ≤ j) :
    ∃ rest, l = k :: rest :=
  exists_cons_of_least hl hk (fun j hlt hj => absurd (hlow j hj) (Nat.not_le.2 hlt))

theorem Arm.closedBoxesAt_sorted (m : Arm) (u : Point) : (m.closedBoxesAt u).Pairwise (· < ·) :=
  List.Pairwise.filter _ List.pairwise_lt_range

section Cause
variable {c : Cell} {a : ArmId}

theorem Cell.causeHolds_rack (b : Nat) :
    c.causeHolds a (.rack b) = true ↔ (∃ port, c.port? a b = some port ∧ port.head = true) ∨
      ∃ u box, (c.arm a).lastSample = some u ∧ (c.arm a).rackBox b = some box ∧ box.contains u = true ∧ (c.arm a).isOpen b = false := by
  simp only [Cell.causeHolds, Bool.or_eq_true]
  refine or_congr ?_ ?_
  · simp only [Cell.headSet]
    cases c.port? a b with
    | none => simp
    | some port => simp
  · simp only [Arm.sampleInClosed]
    cases (c.arm a).lastSample with
    | none => simp
    | some u =>
      simp only [Arm.insideRackBox]
      cases (c.arm a).rackBox b with
      | none => simp
      | some box => simp

theorem Cell.causeHolds_bay (k : Nat) (n : ArmId) :
    c.causeHolds a (.bay k n) = true ↔ ∃ u, (c.arm n).lastSample = some u ∧ k ∈ c.missingAt n u := by
  simp only [Cell.causeHolds]
  cases (c.arm n).lastSample with
  | none => simp
  | some u => simp

/-- The lowest closed rack box of the arm's own last sample comes first, then its lowest missing bay (R174). -/
theorem Cell.ownCause_rack {u : Point} {b : Nat} (hu : (c.arm a).lastSample = some u) (hb : b ∈ (c.arm a).closedBoxesAt u)
    (hlow : ∀ j ∈ (c.arm a).closedBoxesAt u, b ≤ j) : c.ownCause a = some (.rack b) := by
  obtain ⟨rest, hrest⟩ := exists_cons_of_lowest ((c.arm a).closedBoxesAt_sorted u) hb hlow
  simp only [Cell.ownCause, hu, hrest]

theorem Cell.ownCause_bay {u : Point} {k : Nat} (hu : (c.arm a).lastSample = some u) (hno : (c.arm a).closedBoxesAt u = [])
    (hk : k ∈ c.missingAt a u) (hlow : ∀ j ∈ c.missingAt a u, k ≤ j) : c.ownCause a = some (.bay k a) := by
  obtain ⟨rest, hrest⟩ := exists_cons_of_lowest (c.missingAt_sorted a u) hk hlow
  simp only [Cell.ownCause, hu, hno, hrest]

theorem Cell.ownCause_none
    (h : ¬∃ u, (c.arm a).lastSample = some u ∧ ((c.arm a).closedBoxesAt u ≠ [] ∨ c.missingAt a u ≠ [])) : c.ownCause a = none := by
  cases hu : (c.arm a).lastSample with
  | none => simp only [Cell.ownCause, hu]
  | some u =>
    have hclear : (c.arm a).closedBoxesAt u = [] ∧ c.missingAt a u = [] := by
      refine Classical.byContradiction (fun hne => ?_)
      exact h ⟨u, hu, Classical.not_and_iff_not_or_not.1 hne⟩
    simp only [Cell.ownCause, hu, hclear.1, hclear.2]

end Cause

/-! ### STOP_RELEASE (R174) -/

section Release
variable {d : Device} {arm : Nat} {a : ArmId} (ha : armOfCode arm = some a)
include ha

theorem serveStopRelease_clear (h : (d.cell.arm a).stop = none) : serveStopRelease arm d = .refuse d .notFaulted := by
  simp only [serveStopRelease, ha, h]

theorem serveStopRelease_holds {cause : StopCause} (h : (d.cell.arm a).stop = some cause) (hc : d.cell.causeHolds a cause = true) :
    serveStopRelease arm d = ⟨d, .causePresent, stopCauseWords (some cause)⟩ := by
  simp only [serveStopRelease, ha, h, hc, if_true]

theorem serveStopRelease_stands {cause own : StopCause} (h : (d.cell.arm a).stop = some cause) (hc : d.cell.causeHolds a cause = false)
    (ho : d.cell.ownCause a = some own) : serveStopRelease arm d = ⟨d, .causePresent, stopCauseWords (some own)⟩ := by
  simp only [serveStopRelease, ha, h, hc, ho, Bool.false_eq_true, if_false]

theorem serveStopRelease_released {cause : StopCause} (h : (d.cell.arm a).stop = some cause) (hc : d.cell.causeHolds a cause = false)
    (ho : d.cell.ownCause a = none) :
    serveStopRelease arm d = ⟨d.onCell (fun c => c.modArm a (fun m => { m with stop := none })), .ok, []⟩ := by
  simp only [serveStopRelease, ha, h, hc, ho, Bool.false_eq_true, if_false]

end Release

/-- Settles O54: STOP_RELEASE, a latch set, and the stop output. -/
theorem stopReleaseAndTheStopLatch : Obligations.StopReleaseAndTheStopLatch := by
  unfold Obligations.StopReleaseAndTheStopLatch
  refine ⟨fun arm a s ht ha => ?_, fun c a cause => ⟨fun h => ?_, fun h => ?_, ?_⟩⟩
  · intro c m holds stands present
    have hholds : ∀ cause, c.causeHolds a cause = true ↔ holds cause := by
      intro cause
      cases cause with
      | rack b => exact Cell.causeHolds_rack b
      | bay k n => exact Cell.causeHolds_bay k n
    have hnot : ∀ cause, ¬holds cause → c.causeHolds a cause = false :=
      fun cause h => Bool.eq_false_iff.2 (fun hc => h ((hholds cause).1 hc))
    refine ⟨fun h => s.command_leaves 1031 3 31 _ ht .notFaulted _ (serveStopRelease_clear ha h) rfl,
      fun b h hc => s.command_leaves 1031 3 29 _ ht .causePresent _ (serveStopRelease_holds (d := s.dev.clocked 3) ha h ((hholds _).2 hc)) rfl,
      fun k n h hc => s.command_leaves 1031 3 29 _ ht .causePresent _ (serveStopRelease_holds (d := s.dev.clocked 3) ha h ((hholds _).2 hc)) rfl,
      fun cause u h hc hu => ⟨fun b hb hlow => ?_, fun hno k hk hlow => ?_⟩, fun cause h hc hclear => ?_⟩
    · exact s.command_leaves 1031 3 29 _ ht .causePresent _
        (serveStopRelease_stands (d := s.dev.clocked 3) ha h (hnot _ hc) (Cell.ownCause_rack hu hb hlow)) rfl
    · exact s.command_leaves 1031 3 29 _ ht .causePresent _
        (serveStopRelease_stands (d := s.dev.clocked 3) ha h (hnot _ hc) (Cell.ownCause_bay hu hno hk hlow)) rfl
    · exact s.command_cell 1031 3 0 _ ht _ .ok _ (fun c => c.modArm a (fun x => { x with stop := none }))
        (serveStopRelease_released ha h (hnot _ hc) (Cell.ownCause_none hclear)) rfl rfl
  · exact if_pos (Option.isSome_iff_ne_none.2 h)
  · intro latched
    simp only [Cell.latchStop, h, Option.isSome_none, Bool.false_eq_true, if_false]
    refine congrArg (fun n : Cell => n.addNotice (.intrusion a cause)) ?_
    split
    next hrun => exact Cell.message_run _ _ _ (by rw [Cell.arm_modArm_same]; exact hrun)
    next hrun => exact Cell.message_not_run _ _ _ (by rw [Cell.arm_modArm_same]; exact hrun)
  · simp only [Cell.stopOutput, Cell.running_eq, Cell.mode_eq, Bool.or_eq_true, Bool.not_eq_true', beq_eq_false_iff_ne, ne_eq,
      Option.isSome_iff_ne_none]

end Sys2Proof.Machine
end

section
/-! PROOFS. A sample over a bay that is not held, or in a closed rack box (R28, R143, R147, R159, R169, R171): O55. -/

namespace Sys2Proof.Machine

/-! ### The bays of a footprint (R159) -/

theorem Bays.mem_needed (b : Bays) (lo hi : Int) (k : Nat) :
    k ∈ b.needed lo hi ↔ k < b.holders.length ∧ b.origin + k * b.width ≤ hi ∧ lo < b.origin + (k + 1) * b.width := by
  simp [Bays.needed, Bays.meets]

/-- The bays of a footprint, by their floored places (R159). -/
theorem Bays.mem_needed_iff {b : Bays} {lo hi : Int} {k : Nat} (hw : 0 < b.width) :
    k ∈ b.needed lo hi ↔
      (b.origin ≤ hi ∧ lo < b.origin + b.holders.length * b.width) ∧
        max 0 ((lo - b.origin).fdiv b.width) ≤ k ∧ (k : Int) ≤ min (b.holders.length - 1 : Int) ((hi - b.origin).fdiv b.width) := by
  have hlow : (lo - b.origin).fdiv b.width ≤ (k : Int) ↔ lo < b.origin + (k + 1) * b.width := by
    rw [Int.fdiv_eq_ediv_of_nonneg _ (Int.le_of_lt hw), ← Int.lt_add_one_iff, Int.ediv_lt_iff_lt_mul hw, Int.sub_lt_iff, Int.add_comm]
  have hhigh : (k : Int) ≤ (hi - b.origin).fdiv b.width ↔ b.origin + k * b.width ≤ hi := by
    rw [Int.fdiv_eq_ediv_of_nonneg _ (Int.le_of_lt hw), Int.le_ediv_iff_mul_le hw]
    omega
  rw [Bays.mem_needed, Int.max_le, Int.le_min, hlow, hhigh]
  constructor
  · rintro ⟨hk, hstart, hend⟩
    have hstarts : (0 : Int) ≤ k * b.width := Int.mul_nonneg (Int.natCast_nonneg k) (Int.le_of_lt hw)
    have hends : ((k : Int) + 1) * b.width ≤ b.holders.length * b.width :=
      Int.mul_le_mul_of_nonneg_right (by omega) (Int.le_of_lt hw)
    exact ⟨⟨by omega, by omega⟩, ⟨Int.natCast_nonneg k, hend⟩, by omega, hstart⟩
  · rintro ⟨-, ⟨-, hend⟩, hk, hstart⟩
    exact ⟨by omega, hstart, hend⟩

/-- An arm misses the bays that its footprint needs and that it does not hold, once it is extended (R143, R159, R171). -/
theorem Cell.mem_missingAt (c : Cell) (a : ArmId) (u : Point) (k : Nat) :
    k ∈ c.missingAt a u ↔
      k ∈ c.bays.needed (footprintLow (c.arm a).settings (c.usedBox a) u.x) (footprintHigh (c.arm a).settings (c.usedBox a) u.x) ∧
        c.bays.holder k ≠ some a ∧ (c.arm a).settings.safeDepth < u.z + (c.usedBox a).hi.z := by
  simp only [Cell.missingAt, Bays.missing, Cell.needs, Bays.neededBy, List.mem_filter, bne_iff_ne, ne_eq]
  by_cases he : (c.arm a).settings.safeDepth < u.z + (c.usedBox a).hi.z
  · rw [if_pos (show extended (c.arm a).settings (c.usedBox a) u.z = true from decide_eq_true he)]
    simp only [he, and_true]
  · rw [if_neg (show ¬extended (c.arm a).settings (c.usedBox a) u.z = true from fun h => he (of_decide_eq_true h))]
    simp [he]

/-! ### The closed box of a sample (R147) -/

theorem Arm.closedBoxesAt_iff (m : Arm) (u : Point) (b : Nat) :
    b ∈ m.closedBoxesAt u ↔ b ≤ m.rack.ports.length ∧ m.isOpen b = false ∧ ∃ x, m.rackBox b = some x ∧ x.contains u = true := by
  simp only [Arm.closedBoxesAt, Arm.rackBoxNumbers, Arm.portCount, List.mem_filter, List.mem_range, Nat.lt_succ_iff, Bool.and_eq_true,
    Bool.not_eq_true', Arm.insideRackBox]
  refine and_congr_right (fun _ => and_congr_right (fun _ => ?_))
  cases m.rackBox b with
  | none => simp
  | some x => simp

theorem Cell.rackTest_clear {c : Cell} {a : ArmId} {u : Point} (h : (c.arm a).closedBoxesAt u = []) : c.rackTest a u = c := by
  simp only [Cell.rackTest, h]

theorem Cell.rackTest_closed {c : Cell} {a : ArmId} {u : Point} {b : Nat} (hb : b ∈ (c.arm a).closedBoxesAt u)
    (hlow : ∀ j, j < b → j ∉ (c.arm a).closedBoxesAt u) : c.rackTest a u = setStop a (.rack b) c := by
  obtain ⟨rest, hrest⟩ := exists_cons_of_least ((c.arm a).closedBoxesAt_sorted u) hb hlow
  simp only [Cell.rackTest, hrest]

/-! ### A latch set with no change in CYCLE -/

theorem Cell.probes_latchStop (c : Cell) (a : ArmId) (cause : StopCause) : (c.latchStop a cause).probes = c.probes := by
  simp only [Cell.latchStop, Cell.message]
  split
  · rfl
  · split <;> simp

/-- The bays that an arm misses stand when a latch is set. -/
theorem Cell.missingAt_latchStop (c : Cell) (a b : ArmId) (cause : StopCause) (u : Point) :
    (c.latchStop b cause).missingAt a u = c.missingAt a u := by
  have hf := c.follows_latchStop b cause
  refine Cell.missingAt_congr u hf.bays (hf.arm a).settings (congrArg Sequencer.seated (c.latchStop_leaves b a cause).1) (fun p => ?_)
  simp only [Cell.probe, Cell.probes_latchStop]

theorem Cell.stop_ne_none_latchStop (c : Cell) (a : ArmId) (cause : StopCause) : ((c.latchStop a cause).arm a).stop ≠ none := by
  cases h : (c.arm a).stop with
  | none => rw [Cell.stop_latchStop h]; exact Option.some_ne_none _
  | some x =>
    rw [((c.follows_latchStop a cause).arm a).stop x h]
    exact Option.some_ne_none _

theorem setStop_set {a : ArmId} {cause : StopCause} {c : Cell} (h : (c.arm a).stop ≠ none) : setStop a cause c = c := by
  rw [setStop_clear_or_set, if_neg h]

section BayTestStill
variable {c : Cell} {a : ArmId} {u : Point} {j k : Nat}

/-- The bay test of arms with no change in CYCLE sets the latches alone (R171). -/
theorem bayTest_setStop_still (hA : (c.arm a).seq.state.inCycle = false) (hk : (c.missingAt a u).head? = some k) :
    ((∀ j ∈ c.missingAt a u, c.bays.holder j ≠ some a.other) → bayTest setStop c a u = c.latchStop a (.bay k a)) ∧
    ((c.arm a.other).seq.state.inCycle = false → j ∈ c.missingAt a u → c.bays.holder j = some a.other →
      (∀ n ∈ c.missingAt a u, n < j → c.bays.holder n ≠ some a.other) →
      bayTest setStop c a u = (c.latchStop a (.bay k a)).latchStop a.other (.bay j a)) := by
  refine ⟨fun hfree => ?_, fun hB hj hheld hleast => ?_⟩
  · rw [bayTest_alone setStop hk hfree, setStop_still _ _ _ hA]
  · rw [bayTest_both setStop hk hj hheld hleast, setStop_still _ _ _ hA,
      setStop_still _ _ _ (by rw [(c.latchStop_leaves a a.other _).1]; exact hB)]

/-- The arm's latch is set already: only the other arm's may be set (R169, R171). -/
theorem bayTest_setStop_set (hset : (c.arm a).stop ≠ none) :
    ((∀ j ∈ c.missingAt a u, c.bays.holder j ≠ some a.other) → bayTest setStop c a u = c) ∧
    ((c.arm a.other).seq.state.inCycle = false → j ∈ c.missingAt a u → c.bays.holder j = some a.other →
      (∀ n ∈ c.missingAt a u, n < j → c.bays.holder n ≠ some a.other) →
      bayTest setStop c a u = c.latchStop a.other (.bay j a)) := by
  refine ⟨fun hfree => ?_, fun hB hj hheld hleast => ?_⟩
  · cases hm : (c.missingAt a u).head? with
    | none => exact bayTest_clear setStop (List.head?_eq_none_iff.1 hm)
    | some k => rw [bayTest_alone setStop hm hfree, setStop_set hset]
  · cases hm : (c.missingAt a u).head? with
    | none =>
      rw [List.head?_eq_none_iff.1 hm] at hj
      cases hj
    | some k => rw [bayTest_both setStop hm hj hheld hleast, setStop_set hset, setStop_still _ _ _ hB]

end BayTestStill

/-! ### The sample of a MOVE -/

/-- The sample is taken before the tests (R28, R144). -/
theorem State.correct_move {s : State} {a : ArmId} {tag : Nat} {u : Point} (hs : s.serves a (.correct tag 1 0 u)) :
    exec (.correct a tag 1 0 u) s = .next (s.withCell (((s.atService a).handOver a
      (.correctResponse tag .ok (s.dev.correctionInput a u ⟨0, 0, 0⟩).compute.q
        ((s.dev.correctionInput a u ⟨0, 0, 0⟩).flags (s.dev.cell.arm a).mismatch false))).handSample a u)) := by
  have hrun : ((s.atService a).arm a).port.mode = .run := (s.mode_atService a).trans hs.2.1
  have hnone : (s.atService a).activeTip a 0 = none := by
    simp only [Cell.activeTip]
    split <;> rfl
  refine (s.correct_handed hs (Cell.correctRefusal_move hrun) (o := ⟨0, 0, 0⟩) (notQualified := false) ?_ ?_).trans ?_
  · simp only [Cell.activeOffset, hnone]
    rfl
  · simp only [Cell.tipNotQualified, hnone]
  · refine congrArg (fun c : Cell => Host.Outcome.next (s.withCell (c.handSample a u))) ?_
    simp only [Cell.countedTouch]
    split <;> rfl

/-- Settles O55: the bays of a footprint, the missing bays, and the latches that a MOVE sets. -/
theorem sampleOverABayNotHeldSetsTheLatches : Obligations.SampleOverABayNotHeldSetsTheLatches := by
  unfold Obligations.SampleOverABayNotHeldSetsTheLatches
  refine ⟨fun b lo hi k hw _ => Bays.mem_needed_iff hw, fun c a u k => ?_, fun a tag u k s hs => ?_⟩
  · intro m box low high
    have hbox : c.usedBox a = box := by
      simp only [box, m, Cell.usedBox]
      cases (c.arm a).seq.seated <;> rfl
    have hmem := c.mem_missingAt a u k
    rw [hbox] at hmem
    exact ⟨c.missingAt_sorted a u, hmem⟩
  · intro m missing i sampled box still taken
    have hbox : ∀ b, box b ↔ b ∈ m.closedBoxesAt u := fun b => (m.closedBoxesAt_iff u b).symm
    generalize hf : TxFrame.correctResponse tag .ok i.compute.q (i.flags (s.dev.cell.arm a).mismatch false) = f
    have hcounted : s.dev.cell.countedTouch a 1 0 ((s.atService a).handOver a f) = (s.atService a).handOver a f := by
      simp only [Cell.countedTouch]
      split <;> rfl
    have harm : ((s.atService a).handOver a f).arm a = { s.dev.cell.arm a with port := ((s.atService a).arm a).port.handOver f } := by
      rw [← hcounted]
      exact s.arm_countedTouch a 1 0 f
    have hsampled : ((s.atService a).handOver a f).modArm a (fun x => x.takeSample u) = sampled := by
      simp only [sampled, hf]
      refine Cell.modArm_congr _ a _ _ ?_
      rw [harm, Arm.takeSample_port, Arm.takeSample_eq]
    have hexec : exec (.correct a tag 1 0 u) s = .next (s.withCell (bayTest setStop (sampled.rackTest a u) a u)) := by
      rw [State.correct_move hs, ← hsampled, ← hf]
      rfl
    have hsarm : sampled.arm a = { m with port := ((s.atService a).arm a).port.handOver f } := by
      rw [← hsampled, Cell.arm_modArm_same, harm, Arm.takeSample_port]
    have hclosed : (sampled.arm a).closedBoxesAt u = m.closedBoxesAt u := by
      rw [hsarm]
      rfl
    have hseq : ∀ b, (sampled.arm b).seq = (s.dev.cell.arm b).seq := by
      intro b
      rcases a.eq_or_other b with rfl | rfl
      · simp [sampled]
      · simp [sampled]
    have hmissing : sampled.missingAt a u = missing := by
      refine Cell.missingAt_congr u (by simp [sampled]) ?_ (congrArg Sequencer.seated (hseq a)) (fun p => by simp [sampled])
      simp [sampled]
    have hbays : sampled.bays = s.dev.cell.bays := by simp [sampled]
    have hfree : (∀ j ∈ missing, s.dev.cell.bays.holder j = none) → ∀ j ∈ missing, s.dev.cell.bays.holder j ≠ some a.other :=
      fun h j hj => by rw [h j hj]; exact (Option.some_ne_none _).symm
    clear_value sampled
    refine ⟨fun hno hstill hk => ?_, fun b hb hlow => ?_⟩
    · have hclear : sampled.rackTest a u = sampled := Cell.rackTest_clear (by
        rw [hclosed]
        exact List.eq_nil_iff_forall_not_mem.2 (fun b hb => hno b ((hbox b).2 hb)))
      rw [hexec, hclear]
      have htest := fun j => bayTest_setStop_still (c := sampled) (j := j) (by rw [hseq]; exact hstill.1) (by rw [hmissing]; exact hk)
      simp only [hmissing, hbays, hseq] at htest
      exact ⟨fun h => by rw [(htest 0).1 (hfree h)], fun j ⟨hj, hheld, hleast⟩ => by rw [(htest j).2 hstill.2 hj hheld hleast]⟩
    · have hrack : sampled.rackTest a u = setStop a (.rack b) sampled :=
        Cell.rackTest_closed (by rw [hclosed]; exact (hbox b).1 hb) (fun j hlt hj => hlow j hlt ((hbox j).2 (by rwa [hclosed] at hj)))
      have htest : still → ∀ j, _ := fun hstill j =>
        bayTest_setStop_set (c := sampled.latchStop a (.rack b)) (u := u) (j := j) (sampled.stop_ne_none_latchStop a (.rack b))
      simp only [Cell.missingAt_latchStop, hmissing, (sampled.follows_latchStop a (.rack b)).bays, hbays,
        (sampled.latchStop_leaves a a.other (.rack b)).1, hseq] at htest
      have hlatch : still → sampled.rackTest a u = sampled.latchStop a (.rack b) := fun hstill => by
        rw [hrack, setStop_still _ _ _ (by rw [hseq]; exact hstill.1)]
      refine ⟨fun hstill h => ?_, fun hstill j ⟨hj, hheld, hleast⟩ => ?_, fun hclear => ?_⟩
      · rw [hexec, hlatch hstill, (htest hstill 0).1 (hfree h)]
      · rw [hexec, hlatch hstill, (htest hstill j).2 hstill.2 hj hheld hleast]
      · have hstop : (sampled.arm a).stop = none := by
          rw [hsarm]
          change m.stop = none
          simp only [m]
          rw [Arm.takeSample_eq]
          exact hclear
        have htested := (follows_bayTest setStop follows_setStop (sampled.rackTest a u) a u).arm a
        rw [hrack, setStop_clear_or_set, if_pos hstop] at htested
        refine ⟨_, hexec, ?_, ?_⟩
        · rw [hrack, setStop_clear_or_set, if_pos hstop]
          exact htested.stop _ (((Cell.follows_abort _ a .stop).arm a).stop _ (Cell.stop_latchStop hstop))
        · rw [hrack, setStop_clear_or_set, if_pos hstop]
          refine Bool.eq_false_iff.2 (fun hc => ?_)
          have := htested.cycle hc
          rw [Cell.abort_ends] at this
          cases this

end Sys2Proof.Machine
end

section
/-! PROOFS. ARM_ENABLE and ARM_DISABLE (R43, R178, R179, R187): O56. -/

namespace Sys2Proof.Machine

/-! ### ARM_ENABLE -/

section ArmEnable
variable {arm : Nat} {a : ArmId} {d : Device} (ha : armOfCode arm = some a)
include ha

theorem serveArmEnable_busy (h : (d.cell.arm a).port.mode ≠ .off ∨ (d.cell.arm a).maps.anyLoading = true) :
    serveArmEnable arm d = .refuse d .badState := by
  simp only [serveArmEnable, ha]
  by_cases hoff : (d.cell.arm a).port.mode = .off
  · rw [Cell.isOff_of_off hoff, h.resolve_left (fun hn => hn hoff)]
    rfl
  · rw [Cell.isOff_of_not_off hoff]
    rfl

theorem serveArmEnable_off (hoff : (d.cell.arm a).port.mode = .off) (hl : (d.cell.arm a).maps.anyLoading = false) :
    serveArmEnable arm d = if (d.cell.arm a).configured = true ∧ d.cell.bays.holders ≠ [] then
      ⟨d.onCell (fun c => c.modPort a (fun p =>
        { p with mode := .starting, phase := some .listen, attempts := 0, dropped := 0, phaseTimer := some Config.listenTime })), .ok, []⟩
      else .refuse d .notConfigured := by
  have hcount : (d.cell.bays.count == 0) = decide (d.cell.bays.holders = []) := by
    rw [Bool.eq_iff_iff]
    simp [Bays.count]
  simp only [serveArmEnable, ha, Cell.isOff_of_off hoff, hl, hcount]
  cases (d.cell.arm a).configured with
  | false => simp
  | true => by_cases hb : d.cell.bays.holders = [] <;> simp [hb]

/-! ### ARM_DISABLE -/

theorem serveArmDisable_off (hoff : (d.cell.arm a).port.mode = .off) : serveArmDisable arm d = ⟨d, .ok, []⟩ := by
  simp only [serveArmDisable, ha, Cell.mode_eq, hoff]

theorem serveArmDisable_starting (h : (d.cell.arm a).port.mode = .starting) :
    serveArmDisable arm d = ⟨d.onCell (fun c => c.modPort a ArmPort.stop), .ok, []⟩ := by
  simp only [serveArmDisable, ha, Cell.mode_eq, h]

end ArmEnable

/-- Leaving RUN with no change in CYCLE (R187). -/
theorem Cell.leaveRun_still {c : Cell} {a : ArmId} (mode : Mode) (phase : Option Phase) (h : (c.arm a).seq.state.inCycle = false) :
    c.leaveRun a mode phase = c.modArm a (fun x => { x with
      wait := none, lastSample := none, exitSet := []
      port := { x.port.discard with mode := mode, phase := phase, silenceTimer := none, phaseTimer := none } }) := by
  rw [Cell.leaveRun, Cell.abort_still _ _ _ (by rw [Cell.arm_modArm_same]; exact h), Cell.modArm_modArm]
  rfl

/-- Settles O56: ARM_ENABLE and ARM_DISABLE. -/
theorem armEnableAndArmDisable : Obligations.ArmEnableAndArmDisable := by
  unfold Obligations.ArmEnableAndArmDisable
  intro arm a s hs ha m ready put still
  refine ⟨fun h => ?_, fun hoff hl hnot => ?_, fun hoff hl hready => ?_, fun hoff => ?_, fun hst => ?_, fun hrun hstill => ?_⟩
  · exact s.command_leaves 1025 3 8 _ hs .badState [] (serveArmEnable_busy (d := s.dev.clocked 3) ha h) rfl
  · exact s.command_leaves 1025 3 11 _ hs .notConfigured []
      ((serveArmEnable_off (d := s.dev.clocked 3) ha hoff hl).trans (if_neg hnot)) rfl
  · exact s.command_cell 1025 3 0 _ hs _ .ok _ _
      ((serveArmEnable_off (d := s.dev.clocked 3) ha hoff hl).trans (if_pos hready)) rfl rfl
  · exact s.command_leaves 1026 3 0 _ hs .ok [] (serveArmDisable_off (d := s.dev.clocked 3) ha hoff) rfl
  · exact s.command_cell 1026 3 0 _ hs _ .ok _ _ (serveArmDisable_starting (d := s.dev.clocked 3) ha hst) rfl rfl
  · rw [armDisable_leaves hs ha hrun, Cell.leaveRun_still _ _ hstill]
    rfl

end Sys2Proof.Machine
end

section
/-! PROOFS. The requests and frames of the arm link (R180, R186, R188, R189, R190): O58. -/

namespace Sys2Proof.Machine

section Arrival
variable {d : Device} {a : ArmId}

/-- A head after which nothing else waits is served alone. -/
theorem Device.serveWaiting_last (n : Nat) {r : Request} (ht : (d.cell.arm a).port.transmit.length ≤ 12)
    (hq : (d.cell.arm a).port.queue = [r]) :
    Device.serveWaiting a (n + 1) d = serveRequest a r (d.onCell (fun c => c.popRequest a)) := by
  rw [Device.serveWaiting, d.serveHead_cons a ht hq]
  refine Device.serveWaiting_none _ a n (.inl ?_)
  rw [(answers_serveRequest a r _ a).queue]
  change ((d.cell.popRequest a).arm a).port.queue = []
  rw [Cell.popRequest_eq d.cell a hq, Cell.arm_modArm_same]

theorem requestArrives_off (r : Request) (h : (d.cell.arm a).port.mode = .off) : requestArrives a r d = d := by
  simp only [requestArrives, Cell.isOff_of_off h, if_true]

theorem requestArrives_on (r : Request) (h : (d.cell.arm a).port.mode ≠ .off) :
    requestArrives a r d = Device.serveWaiting a 4 (d.onCell (fun c => (c.heard a).offer a r)) := by
  simp only [requestArrives, Cell.isOff_of_not_off h, Bool.false_eq_true, if_false, Config.requestRoom]

/-! ### A request that is heard joins the queue -/

theorem Cell.heard_leaves (c : Cell) (a : ArmId) :
    ((c.heard a).arm a).port.queue = (c.arm a).port.queue ∧ ((c.heard a).arm a).port.transmit = (c.arm a).port.transmit := by
  rw [Cell.heard, Cell.arm_modArm_same]
  split
  · exact ⟨rfl, rfl⟩
  · exact ⟨rfl, rfl⟩

theorem Cell.offer_room {c : Cell} (r : Request) (h : (c.arm a).port.queue.length < 4) :
    c.offer a r = c.modArm a (fun x => { x with port := { x.port with queue := x.port.queue ++ [r] } }) := if_pos h

theorem Cell.offer_full {c : Cell} (r : Request) (h : 4 ≤ (c.arm a).port.queue.length) : c.offer a r = c.handOver a (fullResponse r) :=
  if_neg (Nat.not_lt.2 h)

/-- A request that joins an empty queue and is taken out of it again leaves no trace. -/
theorem Cell.popRequest_offer {c : Cell} (r : Request) (h : (c.arm a).port.queue = []) : (c.offer a r).popRequest a = c := by
  have hroom : (c.arm a).port.queue.length < 4 := by rw [h]; exact Nat.zero_lt_succ 3
  rw [Cell.offer_room r hroom, Cell.popRequest, Cell.modPort_eq, Cell.modArm_modArm]
  refine (Cell.modArm_congr _ _ _ (fun x => x) ?_).trans (c.modArm_id a)
  rw [h]
  change { c.arm a with port := { (c.arm a).port with queue := [] } } = c.arm a
  rw [← h]

/-- A request that arrives on an empty queue is served at its arrival. -/
theorem requestArrives_served (r : Request) (hm : (d.cell.arm a).port.mode ≠ .off) (hq : (d.cell.arm a).port.queue = [])
    (ht : (d.cell.arm a).port.transmit.length ≤ 12) : requestArrives a r d = serviceEvent a r d := by
  obtain ⟨hqueue, htransmit⟩ := d.cell.heard_leaves a
  rw [hq] at hqueue
  have hroom : ((d.cell.heard a).arm a).port.queue.length < 4 := by rw [hqueue]; exact Nat.zero_lt_succ 3
  have hoffered : ((d.onCell (fun c => (c.heard a).offer a r)).cell.arm a).port =
      { ((d.cell.heard a).arm a).port with queue := [r] } := by
    change (((d.cell.heard a).offer a r).arm a).port = _
    rw [Cell.offer_room r hroom, Cell.arm_modArm_same, hqueue]
    rfl
  rw [requestArrives_on r hm, serviceEvent_arrival a r d hm ht hq,
    Device.serveWaiting_last 3 (r := r) (by rw [hoffered]; exact htransmit ▸ ht) (by rw [hoffered])]
  congr 1
  change { d with cell := ((d.cell.heard a).offer a r).popRequest a } = { d with cell := d.cell.heard a }
  rw [Cell.popRequest_offer r hqueue]

/-- Behind more than 12 frames nothing is served. -/
theorem requestArrives_waits (r : Request) (hm : (d.cell.arm a).port.mode ≠ .off) (ht : 12 < (d.cell.arm a).port.transmit.length) :
    requestArrives a r d = d.onCell (fun c => (c.heard a).offer a r) := by
  rw [requestArrives_on r hm]
  refine Device.serveWaiting_none _ a 4 (.inr ?_)
  have hheard : 12 < ((d.cell.heard a).arm a).port.transmit.length := by rwa [(d.cell.heard_leaves a).2]
  change 12 < (((d.cell.heard a).offer a r).arm a).port.transmit.length
  rcases Nat.lt_or_ge ((d.cell.heard a).arm a).port.queue.length 4 with hroom | hfull
  · rw [Cell.offer_room r hroom, Cell.arm_modArm_same]
    exact hheard
  · rw [Cell.offer_full r hfull, Cell.handOver_eq, Cell.arm_modArm_same]
    exact Nat.lt_of_lt_of_le hheard (ArmPort.handOver_grows _ _)

end Arrival

/-! ### HEARTBEAT -/

theorem serveHeartbeat_eq {c : Cell} {a : ArmId} (tag : Nat) :
    serveHeartbeat a tag c =
      c.handOver a (.shortResponse .heartbeat tag (if (c.arm a).port.mode = .run then .ok else .badState) 0 0) := by
  simp only [serveHeartbeat, Cell.respond_eq, Cell.running_eq, beq_iff_eq]

/-- The frame that makes room for HEARTBEAT lets it be served, and its response fills the list again (R188, R190). -/
theorem frameSent_heartbeat {d : Device} {a : ArmId} {tag : Nat} {rest : List Request}
    (hq : (d.cell.arm a).port.queue = .heartbeat tag :: rest) (ht : (d.cell.arm a).port.transmit.length = 13) :
    Device.serveWaiting a 4 (d.onCell (fun c => c.modPort a ArmPort.frameSent)) = { d with cell := d.cell.modArm a (fun x =>
      { x with port := { x.port with queue := rest, transmit := x.port.transmit.drop 1 ++
        [.shortResponse .heartbeat tag (if (d.cell.arm a).port.mode = .run then .ok else .badState) 0 0] } }) } := by
  have hport : ((d.cell.modPort a ArmPort.frameSent).arm a).port = (d.cell.arm a).port.frameSent := by
    rw [Cell.modPort_eq, Cell.arm_modArm_same]
  have hlength : (d.cell.arm a).port.frameSent.transmit.length = 12 := by
    simp only [ArmPort.frameSent, List.length_drop, ht]
  have hpopped : (d.cell.modPort a ArmPort.frameSent).popRequest a =
      d.cell.modArm a (fun x => { x with port := { x.port with queue := rest, transmit := x.port.transmit.drop 1 } }) := by
    rw [Cell.popRequest_eq _ a ((congrArg ArmPort.queue hport).trans hq), Cell.modPort_eq, Cell.modArm_modArm]
    rfl
  have hserved : serveHeartbeat a tag ((d.cell.modPort a ArmPort.frameSent).popRequest a) = d.cell.modArm a (fun x =>
      { x with port := { x.port with queue := rest, transmit := x.port.transmit.drop 1 ++
        [.shortResponse .heartbeat tag (if (d.cell.arm a).port.mode = .run then .ok else .badState) 0 0] } }) := by
    rw [hpopped, serveHeartbeat_eq, Cell.handOver_eq, Cell.modArm_modArm, Cell.arm_modArm_same]
    refine Cell.modArm_congr _ _ _ _ (congrArg (fun p => { d.cell.arm a with port := p }) (ArmPort.handOver_room _ _ ?_))
    change (d.cell.arm a).port.frameSent.transmit.length < 16
    omega
  rw [Device.serveWaiting_head _ a 3 (r := .heartbeat tag) (rest := rest)]
  · exact congrArg (fun c => { d with cell := c }) hserved
  · exact Nat.le_of_eq ((congrArg (fun p : ArmPort => p.transmit.length) hport).trans hlength)
  · exact (congrArg ArmPort.queue hport).trans hq
  · change 12 < ((serveHeartbeat a tag ((d.cell.modPort a ArmPort.frameSent).popRequest a)).arm a).port.transmit.length
    rw [hserved, Cell.arm_modArm_same]
    simp only [List.length_append, List.length_drop, ht, List.length_singleton]
    omega

/-- Settles O58: a request at its arrival, a frame sent, HEARTBEAT, and a frame handed over. -/
theorem requestsAndFramesOfTheArmLink : Obligations.RequestsAndFramesOfTheArmLink := by
  unfold Obligations.RequestsAndFramesOfTheArmLink
  intro a tag r s hh m heard row beat
  have hrow : exec row s = s.event (serviceEvent a r) := by cases r <;> rfl
  have hevent : ∀ {f : Device → Device} {c : Cell}, f s.dev = { s.dev with cell := c } → s.event f = .next (s.withCell c) :=
    fun h => (s.event_live _ hh).trans (congrArg (fun d => Host.Outcome.next { s with dev := d }) h)
  refine ⟨fun hoff => ?_, fun hm hq ht => ?_, fun hm ht => ⟨fun hroom => ?_, fun hfull => ?_⟩, fun h => ?_, fun rest hq ht => ?_, ?_,
    fun hs => ?_, fun hm hq ht => ?_, fun p f => ⟨p.handOver_room f, p.handOver_full f⟩⟩
  · exact hevent (c := s.dev.cell) (requestArrives_off r hoff)
  · rw [hrow]
    refine (s.event_live _ hh).trans ((congrArg (fun d => Host.Outcome.next { s with dev := d }) ?_).trans (s.event_live _ hh).symm)
    exact requestArrives_served r hm hq ht
  · refine hevent ((requestArrives_waits r hm ht).trans (congrArg (fun c => { s.dev with cell := c }) ?_))
    exact Cell.offer_room r (by rw [(s.dev.cell.heard_leaves a).1]; exact hroom)
  · refine hevent ((requestArrives_waits r hm ht).trans (congrArg (fun c => { s.dev with cell := c }) ?_))
    exact Cell.offer_full r (by rw [(s.dev.cell.heard_leaves a).1]; exact hfull)
  · refine hevent (Device.serveWaiting_none _ a 4 ?_)
    change ((s.dev.cell.modArm a _).arm a).servesPromptly
    rw [Cell.arm_modArm_same]
    refine h.imp id (fun ht => ?_)
    rw [ArmPort.frameSent, List.length_drop]
    exact Nat.lt_sub_of_add_lt ht
  · refine hevent (frameSent_heartbeat hq ht)
  · exact hevent (c := s.dev.cell) rfl
  · exact State.service_cell hs (serveHeartbeat a tag) rfl (by rw [serveHeartbeat_eq, s.mode_atService, hs.2.1]; rfl)
  · refine hevent ((serviceEvent_arrival a _ s.dev (by rw [hm]; decide) ht hq).trans (congrArg (fun c => { s.dev with cell := c }) ?_))
    change serveHeartbeat a tag (s.dev.cell.heard a) = _
    rw [Cell.heard_not_run _ _ (show m.port.mode ≠ .run by rw [hm]; decide), serveHeartbeat_eq,
      show (s.dev.cell.arm a).port.mode = _ from hm]
    rfl

end Sys2Proof.Machine
end

section
/-! PROOFS. Bring-up: the resolution of a held code (R92, R182). -/

namespace Sys2Proof.Machine

/-! ### Search in the probe table -/

section Search
variable {c : Cell} {P : Nat × Probe → Bool} {q : Nat}

theorem Cell.find?_probe_mem (h : (c.probes.numbered.find? P).map Prod.fst = some q) : P (q, c.probe q) = true := by
  obtain ⟨⟨k, x⟩, hx, rfl⟩ := Option.map_eq_some_iff.1 h
  obtain ⟨-, -, hget⟩ := (c.probes.mem_numbered k x Probe.reset).1 (List.mem_of_find?_eq_some hx)
  change P (k, c.probes.get k Probe.reset) = true
  rw [hget]
  exact List.find?_some hx

theorem Cell.find?_probe_none (h : ∀ q, P (q, c.probe q) = false) : (c.probes.numbered.find? P).map Prod.fst = none := by
  cases hf : (c.probes.numbered.find? P).map Prod.fst with
  | none => rfl
  | some q => exact absurd (Cell.find?_probe_mem hf) (by rw [h q]; decide)

/-- The only probe that answers is found. -/
theorem Cell.find?_probe_unique (hq : 1 ≤ q ∧ q ≤ 40) (hP : P (q, c.probe q) = true) (hunique : ∀ k, P (k, c.probe k) = true → k = q) :
    (c.probes.numbered.find? P).map Prod.fst = some q := by
  cases hf : (c.probes.numbered.find? P).map Prod.fst with
  | none =>
    have hnone := List.find?_eq_none.1 (Option.map_eq_none_iff.1 hf) (q, c.probe q)
      ((c.probes.mem_numbered q _ Probe.reset).2 ⟨hq.1, hq.2, rfl⟩)
    exact absurd hP hnone
  | some k => rw [hunique k (Cell.find?_probe_mem hf)]

end Search

/-! ### The probes that a code and an arm name -/

section Named
variable {c : Cell} {a : ArmId}

theorem Cell.probe_range {p : Nat} (h : (c.probe p).state ≠ .free) : 1 ≤ p ∧ p ≤ 40 := by
  refine Classical.byContradiction (fun hp => ?_)
  refine h (congrArg Probe.state (?_ : c.probe p = Probe.reset))
  cases p with
  | zero => rfl
  | succ i =>
    have hlen := c.probes.property
    simp only [Cell.probe, Table.get, List.getElem?_eq_none_iff.2 (show c.probes.val.length ≤ i by omega), Option.getD_none]

/-- `q` is SEATED on arm `a` (R182). -/
def Cell.Seats (c : Cell) (a : ArmId) (q : Nat) : Prop :=
  (c.probe q).state ≠ .free ∧ (c.probe q).home = a ∧ (c.probe q).location = .seated

theorem Cell.seatedOn_none (h : ∀ q, ¬c.Seats a q) : c.seatedOn a = none :=
  Cell.find?_probe_none (fun q => by simpa [Cell.Seats] using h q)

theorem Cell.seatedOn_unique {q : Nat} (hq : c.Seats a q) (h : ∀ n, c.Seats a n → n = q) : c.seatedOn a = some q :=
  Cell.find?_probe_unique (Cell.probe_range hq.1) (by simpa [Cell.Seats, and_assoc] using hq)
    (fun n hn => h n (by simpa [Cell.Seats, and_assoc] using hn))

theorem Cell.seats_of_seatedOn {q : Nat} (h : c.seatedOn a = some q) : c.Seats a q := by
  simpa [Cell.Seats, and_assoc] using Cell.find?_probe_mem h

theorem Cell.probeWithCode_none {code : Nat} (h : ∀ n, (c.probe n).state ≠ .free → (c.probe n).code ≠ code) :
    c.probeWithCode code = none :=
  Cell.find?_probe_none (fun n => by simpa using h n)

theorem Cell.probeWithCode_unique {p code : Nat} (hp : (c.probe p).state ≠ .free) (hcode : (c.probe p).code = code)
    (h : ∀ n, (c.probe n).state ≠ .free → (c.probe n).code = code → n = p) : c.probeWithCode code = some p :=
  Cell.find?_probe_unique (Cell.probe_range hp) (by simpa using ⟨hp, hcode⟩) (fun n hn => by
    obtain ⟨hused, hc⟩ : (c.probe n).state ≠ .free ∧ (c.probe n).code = code := by simpa using hn
    exact h n hused hc)

/-! ### The table of R182 -/

theorem Cell.resolution_keep (code : Nat) {cause : AbortCause} {step : Step} {p : Plan}
    (h : (c.arm a).seq.state = .changeFault cause step p) : c.resolution a code = .keep := by
  simp only [Cell.resolution, h]

section NotFaulted
variable (hne : ∀ cause step p, (c.arm a).seq.state ≠ .changeFault cause step p)
include hne

theorem Cell.resolution_empty : c.resolution a 0 = .empty := by
  unfold Cell.resolution
  split
  next h => exact absurd h (hne _ _ _)
  next => rfl

variable {code : Nat} (hcode : code ≠ 0)
include hcode

theorem Cell.resolution_unknown (h : c.probeWithCode code = none) : c.resolution a code = .stranger := by
  unfold Cell.resolution
  split
  next h => exact absurd h (hne _ _ _)
  next => simp only [if_neg hcode, h]

variable {p : Nat} (hp : c.probeWithCode code = some p)
include hp

theorem Cell.resolution_same (h : c.seatedOn a = some p) : c.resolution a code = .same p := by
  unfold Cell.resolution
  split
  next h => exact absurd h (hne _ _ _)
  next => simp only [if_neg hcode, hp, h, if_true]

theorem Cell.resolution_other (h : (c.probe p).home ≠ a) : c.resolution a code = .stranger := by
  have hseated : c.seatedOn a ≠ some p := fun hs => h (Cell.seats_of_seatedOn hs).2.1
  unfold Cell.resolution
  split
  next h => exact absurd h (hne _ _ _)
  next => simp only [if_neg hcode, hp, if_neg hseated, if_pos h]

variable (hhome : (c.probe p).home = a)
include hhome

theorem Cell.resolution_seat (h : (c.probe p).location = .out) : c.resolution a code = .seat p := by
  have hseated : c.seatedOn a ≠ some p := fun hs => by
    have hloc := (Cell.seats_of_seatedOn hs).2.2
    rw [h] at hloc
    cases hloc
  unfold Cell.resolution
  split
  next h => exact absurd h (hne _ _ _)
  next => simp only [if_neg hcode, hp, if_neg hseated, hhome, ne_eq, not_true_eq_false, if_false, h]

theorem Cell.resolution_inRack {k : Nat} (h : (c.probe p).location = .rack k) : c.resolution a code = .inRack k := by
  have hseated : c.seatedOn a ≠ some p := fun hs => by
    have hloc := (Cell.seats_of_seatedOn hs).2.2
    rw [h] at hloc
    cases hloc
  unfold Cell.resolution
  split
  next h => exact absurd h (hne _ _ _)
  next => simp only [if_neg hcode, hp, if_neg hseated, hhome, ne_eq, not_true_eq_false, if_false, h]

end NotFaulted
end Named

/-! ### The records do not see the ports (R97, R119, R182) -/

section Records
variable (c : Cell) (a : ArmId) (g : ArmPort → ArmPort)

theorem Cell.seatedOn_modPort : (c.modPort a g).seatedOn a = c.seatedOn a := by
  simp only [Cell.seatedOn, Cell.modPort_eq, Cell.probes_modArm]

theorem Cell.resolution_modPort (code : Nat) : (c.modPort a g).resolution a code = c.resolution a code := by
  have hcode : (c.modPort a g).probeWithCode code = c.probeWithCode code := by
    simp only [Cell.probeWithCode, Cell.modPort_eq, Cell.probes_modArm]
  have hstate : ((c.modPort a g).arm a).seq.state = (c.arm a).seq.state := by rw [Cell.modPort_eq, Cell.arm_modArm_same]
  have hprobe : ∀ p, (c.modPort a g).probe p = c.probe p := fun p => by rw [Cell.modPort_eq, Cell.probe_modArm]
  simp only [Cell.resolution, hcode, hstate, hprobe, Cell.seatedOn_modPort]

theorem Cell.envelopeFor_modPort (seat : Seated) : (c.modPort a g).envelopeFor a seat = c.envelopeFor a seat := by
  cases seat with
  | noProbe => simp only [Cell.envelopeFor, Cell.boxFor, Cell.modPort_eq, Cell.arm_modArm_same]
  | probe p => simp only [Cell.envelopeFor, Cell.boxFor, Cell.modPort_eq, Cell.arm_modArm_same, Cell.probe_modArm]
  | unknown => simp only [Cell.envelopeFor, Cell.boxFor, Cell.modPort_eq, Cell.arm_modArm_same]

theorem Cell.dropExpectation_modPort (b : ArmId) (p : Nat) :
    (c.modPort a g).dropExpectation b p = (c.dropExpectation b p).modPort a g := by
  simp only [Cell.dropExpectation, Cell.modRack_eq, Cell.modPort_eq]
  rcases a.eq_or_other b with rfl | rfl
  · rw [Cell.modArm_modArm, Cell.modArm_modArm]
  · rw [Cell.modArm_comm]

theorem Cell.dropVacancy_modPort (p : Nat) : (c.modPort a g).dropVacancy a p = (c.dropVacancy a p).modPort a g := by
  simp only [Cell.dropVacancy, Cell.modRack_eq, Cell.modPort_eq, Cell.modArm_modArm]

theorem Cell.modProbe_modPort (p : Nat) (f : Probe → Probe) : (c.modPort a g).modProbe p f = (c.modProbe p f).modPort a g := by
  simp only [Cell.modProbe, Cell.modPort_eq, Cell.probes_modArm, Cell.probe_modArm, Cell.withProbes_modArm]

theorem Cell.probeOut_modPort (p : Nat) : (c.modPort a g).probeOut p = (c.probeOut p).modPort a g := by
  have hprobe : (c.modPort a g).probe p = c.probe p := by rw [Cell.modPort_eq, Cell.probe_modArm]
  simp only [Cell.probeOut, Cell.freeProbe, hprobe, Cell.dropExpectation_modPort, Cell.modProbe_modPort]
  split
  · rfl
  · rfl

theorem Cell.unseat_modPort : (c.modPort a g).unseat a = (c.unseat a).modPort a g := by
  simp only [Cell.unseat, Cell.seatedOn_modPort, Cell.dropVacancy_modPort, Cell.probeOut_modPort]
  split
  · rfl
  · rfl

theorem Cell.applyRecords_modPort (r : Resolution) : (c.modPort a g).applyRecords a r = (c.applyRecords a r).modPort a g := by
  cases r with
  | keep | same q => rfl
  | empty | stranger => exact c.unseat_modPort a g
  | inRack k =>
    simp only [Cell.applyRecords, Cell.unseat_modPort]
    exact Cell.addNotice_modArm _ _ _ _
  | seat p =>
    simp only [Cell.applyRecords, Cell.unseat_modPort, Cell.dropExpectation_modPort, Cell.placeProbe, Cell.modProbe_modPort]

theorem Cell.follows_applyRecords (r : Resolution) : c.Follows (c.applyRecords a r) := by
  cases r with
  | keep | same q => exact .refl c
  | empty | stranger => exact c.follows_unseat a
  | inRack port => exact (c.follows_unseat a).trans (Cell.follows_addNotice _ _)
  | seat p => exact ((c.follows_unseat a).trans (Cell.follows_dropExpectation _ a p)).trans (Cell.follows_placeProbe _ p _)

end Records

/-! ### The records after a resolution, written out -/

section Unseat
variable {c : Cell} {a : ArmId}

theorem Cell.unseat_none (h : ∀ q, ¬c.Seats a q) : c.unseat a = c := by
  simp only [Cell.unseat, Cell.seatedOn_none h]

theorem Cell.unseat_unique {q : Nat} (hq : c.Seats a q) (h : ∀ n, c.Seats a n → n = q) :
    c.unseat a = (c.dropVacancy a q).probeOut q := by
  simp only [Cell.unseat, Cell.seatedOn_unique hq h]

theorem Cell.probe_probeOut_other {p q : Nat} (h : p ≠ q) : (c.probeOut q).probe p = c.probe p := by
  simp only [Cell.probeOut, Cell.freeProbe]
  split
  · rw [Cell.probe_modProbe_other _ _ _ _ h, Cell.dropExpectation, Cell.modRack_eq, Cell.probe_modArm]
  · rw [Cell.probe_modProbe_other _ _ _ _ h]

/-- A probe that is not SEATED on the arm stands. -/
theorem Cell.probe_unseat {p : Nat} (h : ¬c.Seats a p) : (c.unseat a).probe p = c.probe p := by
  simp only [Cell.unseat]
  split
  next => rfl
  next q hq =>
    have hne : p ≠ q := fun hpq => h (hpq ▸ Cell.seats_of_seatedOn hq)
    rw [Cell.probe_probeOut_other hne, Cell.dropVacancy, Cell.modRack_eq, Cell.probe_modArm]

end Unseat

end Sys2Proof.Machine
end

section
/-! PROOFS. Bring-up: HELLO, READY, the expiries and a restart (R45, R109, R119, R180 to R187): O57. -/

namespace Sys2Proof.Machine

/-! ### A failed attempt (R181, R183, R184) -/

section Attempt
variable {c : Cell} {a : ArmId}

theorem Cell.countAttempt_again (h : (c.arm a).port.attempts < 2) :
    c.countAttempt a = c.modArm a (fun x => { x with port := { x.port with
      attempts := x.port.attempts + 1, phase := some .listen, phaseTimer := some 1000 } }) := by
  have hlimit : (c.arm a).port.attempts + 1 < Config.attemptLimit := Nat.succ_lt_succ h
  rw [Cell.countAttempt, if_pos hlimit, Cell.modPort_eq]
  exact Cell.modArm_congr _ _ _ _ rfl

theorem Cell.countAttempt_last (h : 2 ≤ (c.arm a).port.attempts) :
    c.countAttempt a = (c.modArm a (fun x => { x with port := { x.port with
      attempts := x.port.attempts + 1, mode := .off, phase := none, phaseTimer := none
      queue := [], transmit := x.port.transmit.take 1 } })).addNotice (.armLink a .attempts) := by
  have hlimit : ¬(c.arm a).port.attempts + 1 < Config.attemptLimit := Nat.not_lt.2 (Nat.succ_le_succ h)
  rw [Cell.countAttempt, if_neg hlimit, Cell.modPort_eq, Cell.modPort_eq, Cell.modArm_modArm]
  exact congrArg (fun n : Cell => n.addNotice (.armLink a .attempts)) (Cell.modArm_congr _ _ _ _ rfl)

end Attempt

/-! ### A HELLO that is taken (R181 to R184) -/

/-- The port with the fields of a HELLO, whose phase timer has stopped (R181). -/
def ArmPort.holding (tags : Tags) (code : Nat) (p : ArmPort) : ArmPort :=
  { p with expected := tags, heldCode := code, phaseTimer := none }

theorem ArmPort.handOver_holding (tags : Tags) (code : Nat) (p : ArmPort) (f : TxFrame) :
    (p.holding tags code).handOver f =
      { ({ p with expected := tags, heldCode := code } : ArmPort).handOver f with phaseTimer := none } := by
  simpa [ArmPort.holding] using (ArmPort.handOver_with { p with expected := tags, heldCode := code } f p.mode p.phase p.attempts tags code
    p.agreeTags none p.silenceTimer p.queue).symm

theorem ArmPort.agreed_holding (tags : Tags) (code : Nat) (p : ArmPort) (f : TxFrame) (agreeTags : Tags) (phase : Option Phase)
    (phaseTimer : Timer) :
    { (p.holding tags code).handOver f with agreeTags := agreeTags, phase := phase, phaseTimer := phaseTimer } =
      ({ p with expected := tags, heldCode := code, agreeTags := agreeTags, phase := phase, phaseTimer := phaseTimer } :
        ArmPort).handOver f := by
  simpa [ArmPort.holding] using ArmPort.handOver_with (p.holding tags code) f p.mode phase p.attempts tags code agreeTags phaseTimer
    p.silenceTimer p.queue

section TakeHello
variable {c : Cell} {a : ArmId} {tags : Tags} {code : Nat}

theorem Cell.takeHello_eq :
    c.takeHello a tags code =
      if (c.envelopeFor a ((c.resolution a code).seated (c.arm a).seq.seated)).emptyOnAxis then
        ((c.modPort a (ArmPort.holding tags code)).handOver a (.refuse code)).countAttempt a
      else
        (((c.applyRecords a (c.resolution a code)).modPort a (ArmPort.holding tags code)).modSeq a
          (fun q => { q with seated := (c.resolution a code).seated (c.arm a).seq.seated })).agree a := by
  have hseated : ((c.modPort a (ArmPort.holding tags code)).arm a).seq.seated = (c.arm a).seq.seated := by
    rw [Cell.modPort_eq, Cell.arm_modArm_same]
  rw [← Cell.applyRecords_modPort, ← c.envelopeFor_modPort a (ArmPort.holding tags code),
    ← c.resolution_modPort a (ArmPort.holding tags code), ← hseated]
  rfl

section Resolved
variable {r : Resolution} {seat : Seated} (hr : c.resolution a code = r) (hseat : r.seated (c.arm a).seq.seated = seat)
include hr hseat

theorem Cell.takeHello_agrees (h : (c.envelopeFor a seat).emptyOnAxis = false) :
    c.takeHello a tags code = (c.applyRecords a r).modArm a (fun x => { x with
      seq := { x.seq with seated := seat }
      port := ({ x.port with
        expected := tags, heldCode := code, agreeTags := (c.arm a).maps.presented
        phase := some .agree, phaseTimer := some 200 } : ArmPort).handOver
          (.agree (c.arm a).maps.presented seat ((c.applyRecords a r).codeOf seat)) }) := by
  have hmaps : ((c.applyRecords a r).arm a).maps = (c.arm a).maps := ((c.follows_applyRecords a r).arm a).maps
  have hcode : ∀ f : Arm → Arm, ((c.applyRecords a r).modArm a f).codeOf seat = (c.applyRecords a r).codeOf seat := by
    intro f
    cases seat with
    | probe p => exact congrArg Probe.code (Cell.probe_modArm _ _ _ p)
    | noProbe | unknown => rfl
  rw [Cell.takeHello_eq, hr, hseat, if_neg (by rw [h]; decide), Cell.agree]
  simp only [Cell.modPort_eq, Cell.modSeq_eq, Cell.handOver_eq, Cell.modArm_modArm, Cell.arm_modArm_same, hmaps, hcode]
  refine Cell.modArm_congr _ _ _ _ (congrArg (fun p => ({ (c.applyRecords a r).arm a with
    seq := { ((c.applyRecords a r).arm a).seq with seated := seat }, port := p } : Arm)) ?_)
  exact ArmPort.agreed_holding _ _ _ _ _ _ _

section Refused
variable (h : (c.envelopeFor a seat).emptyOnAxis = true)
include h

theorem Cell.takeHello_refuses :
    c.takeHello a tags code = ((c.modPort a (ArmPort.holding tags code)).handOver a (.refuse code)).countAttempt a := by
  rw [Cell.takeHello_eq, hr, hseat, if_pos h]

theorem Cell.takeHello_refuses_again (hn : (c.arm a).port.attempts < 2) :
    c.takeHello a tags code = c.modArm a (fun x => { x with
      port := { ({ x.port with expected := tags, heldCode := code } : ArmPort).handOver (.refuse code) with
        attempts := x.port.attempts + 1, phase := some .listen, phaseTimer := some 1000 } }) := by
  rw [Cell.takeHello_refuses hr hseat h, Cell.modPort_eq, Cell.handOver_eq, Cell.modArm_modArm]
  simp only [ArmPort.handOver_holding]
  rw [Cell.countAttempt_again (by simpa only [Cell.arm_modArm_same, ArmPort.attempts_handOver] using hn), Cell.modArm_modArm]
  simp only [ArmPort.attempts_handOver]

theorem Cell.takeHello_refuses_last (hn : 2 ≤ (c.arm a).port.attempts) :
    c.takeHello a tags code = (c.modArm a (fun x =>
      let y := ({ x.port with expected := tags, heldCode := code } : ArmPort).handOver (.refuse code)
      { x with port := { y with
        attempts := x.port.attempts + 1, mode := .off, phase := none, phaseTimer := none
        queue := [], transmit := y.transmit.take 1 } })).addNotice (.armLink a .attempts) := by
  rw [Cell.takeHello_refuses hr hseat h, Cell.modPort_eq, Cell.handOver_eq, Cell.modArm_modArm]
  simp only [ArmPort.handOver_holding]
  rw [Cell.countAttempt_last (by simpa only [Cell.arm_modArm_same, ArmPort.attempts_handOver] using hn), Cell.modArm_modArm]
  simp only [ArmPort.attempts_handOver]

end Refused
end Resolved

/-- A HELLO that is taken with an attempt left keeps the mode, the queue, the wait slot and the last sample. -/
theorem Cell.takeHello_leaves (hn : (c.arm a).port.attempts < 2) :
    ((c.takeHello a tags code).arm a).port.mode = (c.arm a).port.mode ∧
    ((c.takeHello a tags code).arm a).port.attempts ≤ (c.arm a).port.attempts + 1 ∧
    ((c.takeHello a tags code).arm a).lastSample = (c.arm a).lastSample ∧
    ((c.takeHello a tags code).arm a).wait = (c.arm a).wait ∧
    ((c.takeHello a tags code).arm a).port.queue = (c.arm a).port.queue := by
  cases henv : (c.envelopeFor a ((c.resolution a code).seated (c.arm a).seq.seated)).emptyOnAxis with
  | true =>
    rw [Cell.takeHello_refuses_again rfl rfl henv hn, Cell.arm_modArm_same]
    simp
  | false =>
    have hf := (c.follows_applyRecords a (c.resolution a code)).arm a
    rw [Cell.takeHello_agrees rfl rfl henv, Cell.arm_modArm_same]
    simp only [ArmPort.mode_handOver, ArmPort.attempts_handOver, ArmPort.queue_handOver]
    exact ⟨hf.mode, Nat.le_succ_of_le (Nat.le_of_eq hf.attempts), hf.lastSample, hf.wait, hf.queue⟩

end TakeHello

/-! ### A HELLO in each mode (R180, R181, R185) -/

section Hello
variable {c : Cell} {a : ArmId} {tags : Tags} {code : Nat}

theorem Cell.helloReceived_ignored {letter : Nat} (h : letter ≠ armCode a ∨ (c.arm a).port.mode = .off) :
    c.helloReceived a letter tags code = c := by
  simp only [Cell.helloReceived]
  split
  · rfl
  next hl => simp only [Cell.mode_eq, h.resolve_left hl]

theorem Cell.helloReceived_starting (h : (c.arm a).port.mode = .starting) :
    c.helloReceived a (armCode a) tags code = c.takeHello a tags code := by
  simp only [Cell.helloReceived, ne_eq, not_true_eq_false, if_false, Cell.mode_eq, h]

theorem Cell.helloReceived_run (h : (c.arm a).port.mode = .run) :
    c.helloReceived a (armCode a) tags code = (c.restart a).takeHello a tags code := by
  simp only [Cell.helloReceived, ne_eq, not_true_eq_false, if_false, Cell.mode_eq, h]

/-- A restart leaves the arm STARTING, with no attempts, at rest and with an empty queue (R185, R187). -/
theorem Cell.restart_leaves (c : Cell) (a : ArmId) :
    ((c.restart a).arm a).port.mode = .starting ∧ ((c.restart a).arm a).port.attempts = 0 ∧ ((c.restart a).arm a).lastSample = none ∧
      ((c.restart a).arm a).wait = none ∧ ((c.restart a).arm a).port.queue = [] := by
  obtain ⟨-, hrest, hmode, -, hqueue, -⟩ := c.leaveRun_arm a .starting (some .listen)
  rw [Cell.restart, Cell.modPort_eq, Cell.arm_modArm_same, Cell.arm_addNotice]
  exact ⟨hmode, rfl, hrest.lastSample, hrest.wait, hqueue⟩

end Hello

/-- The records of a probe that a HELLO seats (R182). -/
theorem Cell.seat_eq (c : Cell) (a : ArmId) (p : Nat) :
    (c.dropExpectation a p).placeProbe p .seated =
      ({ c with probes := c.probes.set p { c.probe p with location := .seated } } : Cell).modArm a (fun x => { x with rack := { x.rack with
        ports := x.rack.ports.map (fun y => if y.state = .expecting p then { y with state := .empty } else y) } }) := by
  simp only [Cell.dropExpectation, Cell.modRack_eq, Cell.placeProbe, Cell.modProbe, Cell.probes_modArm, Cell.probe_modArm,
    Cell.withProbes_modArm]
  rfl

theorem Cell.code_seated (c : Cell) (a : ArmId) {p : Nat} (hp : 1 ≤ p ∧ p ≤ 40) :
    (((c.dropExpectation a p).placeProbe p .seated).probe p).code = (c.probe p).code := by
  rw [Cell.placeProbe, Cell.probe_modProbe_same _ _ _ hp.1 hp.2, Cell.dropExpectation, Cell.modRack_eq, Cell.probe_modArm]

/-- Settles O57: the bring-up of an arm. -/
theorem bringUpFollowsItsPhases : Obligations.BringUpFollowsItsPhases := by
  unfold Obligations.BringUpFollowsItsPhases
  intro a tags s hh c m hello changed empties seats taken resolves used seated
  have hevent : ∀ {f : Cell → Cell} {n : Cell}, f c = n → s.event (fun d => d.onCell f) = .next (s.withCell n) :=
    fun h => (s.event_live _ hh).trans (congrArg (fun n => Host.Outcome.next (s.withCell n)) h)
  have hresolves : ∀ {code : Nat} {r : Resolution} {seat : Seated} {sent : Nat} {n : Cell}, m.port.mode = .starting →
      c.resolution a code = r → r.seated m.seq.seated = seat → c.applyRecords a r = n → n.codeOf seat = sent →
      resolves code seat sent n := by
    intro code r seat sent n hm hr hseat hn hsent
    subst hn hsent
    refine ⟨fun henv => ?_, fun henv => ⟨fun hlt => ?_, fun hge => ?_⟩⟩
    · exact hevent ((Cell.helloReceived_starting hm).trans (Cell.takeHello_agrees hr hseat henv))
    · exact hevent ((Cell.helloReceived_starting hm).trans (Cell.takeHello_refuses_again hr hseat henv hlt))
    · exact hevent ((Cell.helloReceived_starting hm).trans (Cell.takeHello_refuses_last hr hseat henv hge))
  have hseats : ∀ p n, (n.dropExpectation a p).placeProbe p .seated = seats p n := fun p n => n.seat_eq a p
  clear_value resolves seats
  refine ⟨fun letter code h => ?_, fun hm hne left hleft => ?_, fun hm cause step p hs code => ?_, fun hm hp => ?_, fun hn => ?_,
    fun phase hp ht => ⟨fun hlt => ?_, fun hge => ?_⟩, fun hrun ht hstill => ?_, fun hrun code => ?_, fun hrun => ?_⟩
  · exact hevent (n := c) (Cell.helloReceived_ignored h)
  · have hunseat : c.unseat a = left := by
      rcases hleft with ⟨hnone, rfl⟩ | ⟨q, hq, hunique, rfl⟩
      · exact Cell.unseat_none hnone
      · exact Cell.unseat_unique hq hunique
    subst hunseat
    refine ⟨hresolves hm (Cell.resolution_empty hne) rfl rfl rfl, fun p hp hcode hunique => ?_, fun code hcode hnone => ?_⟩
    · intro code
      have hnamed : c.probeWithCode code = some p := Cell.probeWithCode_unique hp rfl hunique
      refine ⟨fun hseated => ?_, fun hhome hout => ?_, fun k hhome hrack => ?_, fun hother => ?_⟩
      · have hon : c.seatedOn a = some p := by
          rcases hleft with ⟨hnone, -⟩ | ⟨q, hq, huq, -⟩
          · exact absurd hseated (hnone p)
          · rw [huq p hseated]
            exact Cell.seatedOn_unique hq huq
        exact hresolves hm (Cell.resolution_same hne hcode hnamed hon) rfl rfl rfl
      · have hnot : ¬c.Seats a p := fun h => by
          have hloc := h.2.2
          rw [hout] at hloc
          cases hloc
        refine hresolves hm (Cell.resolution_seat hne hcode hnamed hhome hout) rfl (hseats p _) ?_
        rw [← hseats]
        exact ((c.unseat a).code_seated a (Cell.probe_range hp)).trans (congrArg Probe.code (Cell.probe_unseat hnot))
      · exact hresolves hm (Cell.resolution_inRack hne hcode hnamed hhome hrack) rfl rfl rfl
      · exact hresolves hm (Cell.resolution_other hne hcode hnamed hother) rfl rfl rfl
    · exact hresolves hm (Cell.resolution_unknown hne hcode (Cell.probeWithCode_none hnone)) rfl rfl rfl
  · exact hresolves hm (Cell.resolution_keep code hs) rfl rfl rfl
  · exact hevent (Eq.trans (if_pos ⟨hm, hp⟩) (c.modArm_congr a _ _ rfl))
  · exact hevent (n := c) (if_neg hn)
  · cases phase with
    | listen => exact hevent ((if_pos ⟨hp, ht⟩).trans (Cell.countAttempt_again hlt))
    | agree => exact hevent ((if_pos ⟨hp, ht⟩).trans (Cell.countAttempt_again hlt))
  · cases phase with
    | listen => exact hevent ((if_pos ⟨hp, ht⟩).trans (Cell.countAttempt_last hge))
    | agree => exact hevent ((if_pos ⟨hp, ht⟩).trans (Cell.countAttempt_last hge))
  · rw [silenceExpiry_leaves hh hrun ht, Cell.leaveRun_still _ _ hstill]
    rfl
  · obtain ⟨hmode, hattempts, hsample, hwait, hqueue⟩ := c.restart_leaves a
    obtain ⟨kmode, kattempts, ksample, kwait, kqueue⟩ :=
      Cell.takeHello_leaves (c := c.restart a) (a := a) (tags := tags) (code := code) (by rw [hattempts]; exact Nat.zero_lt_succ 1)
    refine ⟨_, hevent (Cell.helloReceived_run hrun), kmode.trans hmode, ?_, ksample.trans hsample, kwait.trans hwait, kqueue.trans hqueue⟩
    exact Nat.le_trans kattempts (Nat.succ_le_succ (Nat.le_of_eq hattempts))
  · intro left restarted code
    have hrestart : c.restart a = restarted := by
      rw [Cell.restart, Cell.leaveRun, Cell.modPort_eq, ← Cell.addNotice_modArm, Cell.modArm_modArm]
      rfl
    have hmode : (restarted.arm a).port.mode = .starting := by
      rw [← hrestart]
      exact (c.restart_leaves a).1
    refine (hevent ((Cell.helloReceived_run hrun).trans (congrArg (fun n : Cell => n.takeHello a tags code) hrestart))).trans ?_
    refine Eq.symm (((s.withCell restarted).event_live _ hh).trans ?_)
    exact congrArg (fun n => Host.Outcome.next (s.withCell n)) (Cell.helloReceived_starting hmode)

end Sys2Proof.Machine
end
